-- ==== Sys2Proof/Word.lean ====
section
/-! DEFINITION. The word types of the engine: bytes, lengths, blocks, matrix cells (spec 00_scope.md R8, R9, R12). -/

namespace Sys2Proof

/-- A byte: 8 bits (R12). -/
abbrev Byte := BitVec 8

/-- A length, count, result or index: LEN_W = 32 bits (R9, D2). -/
abbrev Len := BitVec 32

/-- A 32-byte value: a block, the key, the IV, KEYROUND, a staging register (R8).
Element `k` is byte `k` (R13). -/
abbrev Block := Vector Byte 32

/-- One cell of MATRIX: a signed integer of CELL_W = 32 bits (R9, R27). -/
abbrev Cell := BitVec 32

/-- MATRIX: 4 rows of 8 cells; `m[r][c]` is `MATRIX[r][c]` (R13, R27). -/
abbrev Matrix := Vector (Vector Cell 8) 4

/-- The header of a command packet: 36 bits, `op` in 35:32, `len` in 31:0 (R90). -/
abbrev Header := BitVec 36

/-- The content of PHASE: 5 bits (R30, R99). -/
abbrev PhaseCode := BitVec 5

end Sys2Proof
end

