-- ==== Sys2Proof/Syntax.lean ====
section
/-! DEFINITION. The syntax: one constructor of `Instr` for each row of spec/opcode_table.json (9 command
rows, 22 micro-step rows), command packets (30_encoding.md R90) and the textual lines of R101. -/

namespace Sys2Proof

/-- The rows of the opcode table. A command row carries the fields of its 36-bit header that its encoding
leaves open: `len` and, for the rows with several codes, the low bits of `op` (`mm`, `s`, `ss` in the
table). The payload is no part of the header: the engine takes it from the payload port (R31, R94, R103).
A micro-step row has no operand: it is the content of PHASE (R99). -/
inductive Instr where
  /-- SET_IV, op 0x0 (R121); `len` ignored (R97). -/
  | setIv (len : Len)
  /-- SET_KEY, op 0x1 (R122); `len` ignored (R97). -/
  | setKey (len : Len)
  /-- SET_PLAINTEXT, op 0x2 (R123). -/
  | setPlaintext (len : Len)
  /-- SET_CIPHERTEXT, op 0x3 (R124). -/
  | setCiphertext (len : Len)
  /-- UPD_OTHER, op 0b01mm: update modes 4 to 7 (R95, R125); `len` ignored. -/
  | updOther (mm : BitVec 2) (len : Len)
  /-- ENCRYPT, op 0x8 (R180); `len` ignored. -/
  | encrypt (len : Len)
  /-- DECRYPT, op 0x9 (R181); `len` ignored. -/
  | decrypt (len : Len)
  /-- RUN_RSVD, first row, op 0b101s: reserved run selectors 2 and 3 (R96); `len` ignored. -/
  | runRsvdLow (sel : BitVec 1) (len : Len)
  /-- RUN_RSVD, second row, op 0b11ss: reserved run selectors 4 to 7 (R96); `len` ignored. -/
  | runRsvdHigh (sel : BitVec 2) (len : Len)
  /-- PHASE 0 (R212). -/
  | idle
  /-- PHASE 1 (R120). -/
  | upd
  /-- PHASE 2 (R185). -/
  | rCheck
  /-- PHASE 3 (R186). -/
  | rInit
  /-- PHASE 4 (R187). -/
  | rTest
  /-- PHASE 5 (R188). -/
  | eCopyin
  /-- PHASE 6 (R189). -/
  | eXor
  /-- PHASE 7 (R190). -/
  | eChain
  /-- PHASE 8 (R191). -/
  | eLoad
  /-- PHASE 9 (R192). -/
  | ePerm
  /-- PHASE 10 (R193). -/
  | eExport
  /-- PHASE 11 (R194). -/
  | eCopyout
  /-- PHASE 12 (R196). -/
  | dCopyin
  /-- PHASE 13 (R197). -/
  | dLoad
  /-- PHASE 14 (R198). -/
  | dInvperm
  /-- PHASE 15 (R199). -/
  | dExport
  /-- PHASE 16 (R200). -/
  | dXor
  /-- PHASE 17 (R201). -/
  | dCopyout
  /-- PHASE 18 (R202). -/
  | dChain
  /-- PHASE 19 (R203). -/
  | rNext
  /-- PHASE 20 (R204). -/
  | dStrip
  /-- PHASE 21 (R205). -/
  | rDone
  deriving DecidableEq, Repr

/-- The bits that select an instruction: a command header on the command port (R90), or the content of
PHASE (R99). -/
inductive Code where
  | header (h : Header)
  | phase (p : PhaseCode)
  deriving DecidableEq, Repr

/-- A command packet: the header and the payload bytes, index 0 first (R90, R94). -/
structure Packet where
  header : Header
  payload : List Byte
  deriving DecidableEq, Repr

/-- One line of the textual form of R101: a mnemonic and its payload bytes. -/
inductive Line where
  | setIv (bytes : Block)
  | setKey (bytes : Block)
  | setPlaintext (bytes : List Byte)
  | setCiphertext (bytes : List Byte)
  /-- `UPD_OTHER m`, m = 4 to 7. -/
  | updOther (m : Nat)
  | encrypt
  | decrypt
  /-- `RUN_RSVD s`, s = 10 to 15. -/
  | runRsvd (s : Nat)
  deriving DecidableEq, Repr

end Sys2Proof
end

