-- ==== Sys2Proof/Decode.lean ====
section
/-! DEFINITION. Decoding command headers and PHASE codes (30_encoding.md R90 to R92, R99), then the
encoder, the payload length rule (R93) and the packets of the textual lines (R101). -/

namespace Sys2Proof

/-- Why bits are no instruction. -/
inductive DecodeError where
  /-- A PHASE code 22 to 31: "unused", "never reached" (R99). -/
  | unusedPhase (p : PhaseCode)
  /-- Bits set above the 36 bits of a header. -/
  | bitsAboveHeader
  /-- Bits set above the 5 bits of a PHASE code. -/
  | bitsAbovePhase
  /-- More bits than any row of the table has. -/
  | tooWide
  deriving DecidableEq, Repr

/-- Header field `op`, bits 35:32 (R90). -/
def opField (h : Header) : BitVec 4 := h.extractLsb' 32 4

/-- Header field `len`, bits 31:0 (R90). -/
def lenField (h : Header) : Len := h.extractLsb' 0 32

/-- The operation code selects the command (R92); `len` never does (R91). Total: all 16 codes have a
meaning. -/
def decodeOp (op : BitVec 4) (len : Len) : Instr :=
  if op = 0x0#4 then .setIv len
  else if op = 0x1#4 then .setKey len
  else if op = 0x2#4 then .setPlaintext len
  else if op = 0x3#4 then .setCiphertext len
  else if op.extractLsb' 2 2 = 0b01#2 then .updOther (op.extractLsb' 0 2) len
  else if op = 0x8#4 then .encrypt len
  else if op = 0x9#4 then .decrypt len
  else if op.extractLsb' 1 3 = 0b101#3 then .runRsvdLow (op.extractLsb' 0 1) len
  else .runRsvdHigh (op.extractLsb' 0 2) len

/-- The command of a header (R90 to R92). -/
def decodeHeader (h : Header) : Instr := decodeOp (opField h) (lenField h)

/-- The micro-step of a PHASE code (R99); 22 to 31 are rejected by name. -/
def decodePhase (p : PhaseCode) : Except DecodeError Instr :=
  match p.toNat with
  | 0 => .ok .idle
  | 1 => .ok .upd
  | 2 => .ok .rCheck
  | 3 => .ok .rInit
  | 4 => .ok .rTest
  | 5 => .ok .eCopyin
  | 6 => .ok .eXor
  | 7 => .ok .eChain
  | 8 => .ok .eLoad
  | 9 => .ok .ePerm
  | 10 => .ok .eExport
  | 11 => .ok .eCopyout
  | 12 => .ok .dCopyin
  | 13 => .ok .dLoad
  | 14 => .ok .dInvperm
  | 15 => .ok .dExport
  | 16 => .ok .dXor
  | 17 => .ok .dCopyout
  | 18 => .ok .dChain
  | 19 => .ok .rNext
  | 20 => .ok .dStrip
  | 21 => .ok .rDone
  | _ => .error (.unusedPhase p)

/-- The decoder: total on any header and any PHASE code. -/
def decode : Code → Except DecodeError Instr
  | .header h => .ok (decodeHeader h)
  | .phase p => decodePhase p

/-- The code that `nbits` bits of value `w` stand for: a PHASE code fills at most one byte, a header five
bytes (36 bits). Log entry 13. -/
def codeOfWord (nbits w : Nat) : Except DecodeError Code :=
  if nbits ≤ 8 then
    if w < 32 then .ok (.phase (BitVec.ofNat 5 w)) else .error .bitsAbovePhase
  else if nbits ≤ 40 then
    if w < 2 ^ 36 then .ok (.header (BitVec.ofNat 36 w)) else .error .bitsAboveHeader
  else .error .tooWide

/-- Decoding of a word of any width, rejecting by name. -/
def decodeWord (nbits w : Nat) : Except DecodeError Instr :=
  match codeOfWord nbits w with
  | .ok c => decode c
  | .error e => .error e

/-- The instruction of a row of spec/opcode_table.json, its bits numbered as the table numbers them. -/
def decodeTableWord (nbits w : Nat) : Option Instr :=
  match decodeWord nbits w with
  | .ok i => some i
  | .error _ => none

/-! ### The encoder -/

/-- A header from its two fields: `{op, len}` (R90). -/
def headerOf (op : BitVec 4) (len : Len) : Header := op ++ len

/-- The encoding of an instruction (R92, R99). -/
def encode : Instr → Code
  | .setIv len => .header (headerOf 0x0#4 len)
  | .setKey len => .header (headerOf 0x1#4 len)
  | .setPlaintext len => .header (headerOf 0x2#4 len)
  | .setCiphertext len => .header (headerOf 0x3#4 len)
  | .updOther mm len => .header (headerOf (0b01#2 ++ mm) len)
  | .encrypt len => .header (headerOf 0x8#4 len)
  | .decrypt len => .header (headerOf 0x9#4 len)
  | .runRsvdLow sel len => .header (headerOf (0b101#3 ++ sel) len)
  | .runRsvdHigh sel len => .header (headerOf (0b11#2 ++ sel) len)
  | .idle => .phase 0#5
  | .upd => .phase 1#5
  | .rCheck => .phase 2#5
  | .rInit => .phase 3#5
  | .rTest => .phase 4#5
  | .eCopyin => .phase 5#5
  | .eXor => .phase 6#5
  | .eChain => .phase 7#5
  | .eLoad => .phase 8#5
  | .ePerm => .phase 9#5
  | .eExport => .phase 10#5
  | .eCopyout => .phase 11#5
  | .dCopyin => .phase 12#5
  | .dLoad => .phase 13#5
  | .dInvperm => .phase 14#5
  | .dExport => .phase 15#5
  | .dXor => .phase 16#5
  | .dCopyout => .phase 17#5
  | .dChain => .phase 18#5
  | .rNext => .phase 19#5
  | .dStrip => .phase 20#5
  | .rDone => .phase 21#5

/-! ### Payload length and textual lines -/

/-- The number of payload bytes the engine takes, a function of the header alone (R92, R93). -/
def payloadBytes (maxLen : Nat) (op : BitVec 4) (len : Len) : Nat :=
  if op = 0x0#4 ∨ op = 0x1#4 then 32
  else if op = 0x2#4 ∨ op = 0x3#4 then
    if 32 ≤ len.toNat ∧ len.toNat ≤ maxLen then len.toNat else 0
  else 0

/-- The packet of a text update (R101): `n` payload bytes if 32 ≤ n ≤ MAX_LEN, else none. -/
def textPacket (maxLen : Nat) (op : BitVec 4) (bytes : List Byte) : Packet :=
  let len := BitVec.ofNat 32 bytes.length
  ⟨headerOf op len, bytes.take (payloadBytes maxLen op len)⟩

/-- The packet a textual line stands for (R101). Where `len` is ignored the line sends 0. -/
def Line.packet (maxLen : Nat) : Line → Packet
  | .setIv bytes => ⟨headerOf 0x0#4 0#32, bytes.toList⟩
  | .setKey bytes => ⟨headerOf 0x1#4 0#32, bytes.toList⟩
  | .setPlaintext bytes => textPacket maxLen 0x2#4 bytes
  | .setCiphertext bytes => textPacket maxLen 0x3#4 bytes
  | .updOther m => ⟨headerOf (BitVec.ofNat 4 m) 0#32, []⟩
  | .encrypt => ⟨headerOf 0x8#4 0#32, []⟩
  | .decrypt => ⟨headerOf 0x9#4 0#32, []⟩
  | .runRsvd s => ⟨headerOf (BitVec.ofNat 4 s) 0#32, []⟩

end Sys2Proof
end

