-- ==== Sys2Proof/Config.lean ====
section
/-! DEFINITION. What is fixed for the machine (spec 00_scope.md R8, R9) and the free values. -/

namespace Sys2Proof.Config

/-- SENTINEL = 0xFFFFFFFF, the result of a failed run command (R9, R33, D5). -/
def sentinel : Len := 0xFFFFFFFF#32

/-- TERM = 0x00, the byte the strip step writes (R9, R216, D6; the spec's K2, from general knowledge). -/
def term : Byte := 0x00#8

end Config

/-- The two readings of the decrypt-side keyround update (R9 parameter DEC_CHAIN, R144). -/
inductive DecChain where
  /-- `KEYROUND <- KEYROUND xor FED`: the value this hardware takes (R144, D7, C1). -/
  | xorFed
  /-- `KEYROUND <- FED`: the alternative the spec writes out; not this hardware. -/
  | copyFed
  deriving DecidableEq, Repr

/-- The registers of 32 bytes whose content R38 gives no value after reset. -/
inductive BlockReg where
  | key | iv | keyround | blk | fed | out
  deriving DecidableEq, Repr

/-- The two buffer memories (R24, R25). -/
inductive Buffer where
  | pt | ct
  deriving DecidableEq, Repr

namespace Config

/-- DEC_CHAIN of this hardware: XOR_FED (R9, R144; 90_conflicts.md C1). -/
def decChain : DecChain := .xorFed

/-- MAX_LEN of the state after reset. DESIGN CHOICE, log entry 1: R9 leaves MAX_LEN an open argument of
the model, so a state carries it (`State.maxLen`) and a statement holds for every value of it; only
`State.reset` needs one number. -/
def resetMaxLen : Nat := 4096

/-- Free value: the bits under a register that holds no value after reset. R37: "A model must not
substitute zero." Nothing can be proved of it. DESIGN CHOICE, log entry 2. -/
opaque unsetBlock : BlockReg → Block

/-- Free value: the bits of MATRIX while it holds no value after reset (R37). DESIGN CHOICE, log entry 2. -/
opaque unsetMatrix : Matrix

/-- Free value: what an engine read of a buffer byte that holds no value gives. R37 says no rule of the
engine reads one; no run from reset does. DESIGN CHOICE, log entry 4. -/
opaque noValueByte : Buffer → Nat → Byte

end Sys2Proof.Config
end

