-- ==== Sys2Proof/Machine/State.lean ====
section
/-! DEFINITION. The state of the engine (10_state.md R20), the reasons a step can stop, and the state after
reset (R38). -/

namespace Sys2Proof.Machine

/-- Why the machine stops with a fault. -/
inductive Fault where
  /-- Raised by the micro-steps E_COPYIN, E_COPYOUT, D_COPYIN, D_COPYOUT, D_STRIP and by the strip of DECRYPT
  when they would access an index of PT or CT at or above MAX_LEN: R24 and R25 give the buffers the indices
  0 to MAX_LEN − 1 only. Safe: no run from reset reaches it (R63). Log entry 5. -/
  | outsideBuffer (buffer : Buffer) (index : Nat)
  deriving DecidableEq, Repr

/-- Why the machine gives an instruction no meaning. -/
inductive Refusal where
  /-- Raised by an arm of `exec` whose instruction has no meaning yet. Safe. -/
  | notModelled (mnemonic : String)
  /-- Raised by `step` when PHASE holds 22 to 31, which R99 calls unused and never reached. Safe: no step
  writes such a code. Log entry 12. -/
  | unusedPhase (code : PhaseCode)
  deriving DecidableEq, Repr

/-- A register that can hold *no value* (R37): `held` says whether it holds one, `bits` are its bits. While
`held` is false the host cannot read it (R66) and, in a run from reset, no rule reads it (R37). -/
structure Reg (α : Type) where
  bits : α
  held : Bool
  deriving DecidableEq, Repr

/-- A register that holds the value `v`. -/
def Reg.value {α : Type} (v : α) : Reg α := ⟨v, true⟩

/-- A register that holds no value; `b` are the bits under that mark. -/
def Reg.noValue {α : Type} (b : α) : Reg α := ⟨b, false⟩

/-- A buffer memory: the bytes that hold a value, by index, indices strictly rising. An index that is not
listed holds no value (R37). -/
abbrev Memory := List Host.Cell

/-- The canonical form of a memory: indices strictly rising. No entry can equal what an unlisted index reads
as, since an unlisted index holds no value. -/
abbrev Memory.wf (m : Memory) : Prop := m.Pairwise (fun x y => x.1 < y.1)

/-- Failure causes (R221). Code 7 is reserved and has no constructor (93 U10). -/
inductive Cause where
  | none | precond | short | verify | badmode | badcmd | capacity
  deriving DecidableEq, Repr

/-- The stored fields of STATUS (R32): BUSY follows PHASE and the reserved bits read 0, so neither is stored.
Log entry 16. -/
structure Status where
  ok : Bool
  err : Cause
  paduf : Bool
  deriving DecidableEq, Repr

/-- A response (`ok`, `value`) (R98). -/
structure Response where
  ok : Bool
  value : Len
  deriving DecidableEq, Repr

/-- The two levels at which the spec describes the engine (R11). -/
inductive Level where
  /-- A packet accepted in IDLE runs as one atomic transition. -/
  | command
  /-- A packet accepted in IDLE sets PHASE, and the micro-steps run one by one. -/
  | microstep
  deriving DecidableEq, Repr

/-- The whole state (R20), the engine's ports (R103) and the model's own fields. -/
structure State where
  /-- KEY (R21). -/
  key : Reg Block
  /-- KEY_LEN (R22). -/
  keyLen : Len
  /-- IV (R21). -/
  iv : Reg Block
  /-- IV_LEN (R22). -/
  ivLen : Len
  /-- PT (R24). -/
  pt : Memory
  /-- PT_LEN (R23). -/
  ptLen : Len
  /-- PT_EXT (R24). -/
  ptExt : Len
  /-- CT (R25). -/
  ct : Memory
  /-- CT_LEN (R23). -/
  ctLen : Len
  /-- CT_EXT (R25). -/
  ctExt : Len
  /-- KEYROUND (R26). -/
  keyround : Reg Block
  /-- MATRIX (R27). -/
  matrix : Reg Matrix
  /-- BLK (R28). -/
  blk : Reg Block
  /-- FED (R28). -/
  fed : Reg Block
  /-- OUT (R28). -/
  out : Reg Block
  /-- BLKCNT (R29). -/
  blkcnt : Reg Len
  /-- NMEMB (R29). -/
  nmemb : Reg Len
  /-- TOTAL (R29). -/
  total : Reg Len
  /-- OUTLEN (R29). -/
  outlen : Reg Len
  /-- PADCNT (R29). -/
  padcnt : Reg Byte
  /-- PHASE (R30). -/
  phase : PhaseCode
  /-- OP (R31). -/
  op : Reg (BitVec 4)
  /-- LENOP (R31). -/
  lenop : Reg Len
  /-- STATUS, its stored fields (R32). -/
  status : Status
  /-- RESULT (R33). -/
  result : Len
  /-- Command port: the headers the host presents, in order; the first is the one presented now (R103 item 1).
  Log entry 7. -/
  cmdPort : List Header
  /-- Payload port: the bytes the host delivers, in order (R94, R103 item 2). Log entry 7. -/
  payPort : List Byte
  /-- Response port: the responses presented so far, oldest first (R98, R103 item 3). Log entry 7. -/
  respPort : List Response
  /-- Reset input, true while asserted (R103 item 5, R250). Log entry 10. -/
  resetIn : Bool
  /-- Model's own: what the 32 cells hold after the next copy into KEY or IV, where storage corrupts it; `none`
  in a fault-free storage (R224, 93 U3). Log entry 11. -/
  storageFault : Option Block
  /-- Model's own: the parameter MAX_LEN, an argument of the model (R9, D4). No step writes it. Log entry 1. -/
  maxLen : Nat
  /-- Model's own: the level at which a packet accepted in IDLE runs (R11). No step writes it. Log entry 6. -/
  level : Level
  deriving DecidableEq, Repr

/-- The reset state (R38) of an engine whose MAX_LEN is `maxLen`. -/
def State.resetWith (maxLen : Nat) : State where
  key := .noValue (Config.unsetBlock .key)
  keyLen := 0#32
  iv := .noValue (Config.unsetBlock .iv)
  ivLen := 0#32
  pt := []
  ptLen := 0#32
  ptExt := 0#32
  ct := []
  ctLen := 0#32
  ctExt := 0#32
  keyround := .noValue (Config.unsetBlock .keyround)
  matrix := .noValue Config.unsetMatrix
  blk := .noValue (Config.unsetBlock .blk)
  fed := .noValue (Config.unsetBlock .fed)
  out := .noValue (Config.unsetBlock .out)
  blkcnt := .noValue 0#32
  nmemb := .noValue 0#32
  total := .noValue 0#32
  outlen := .noValue 0#32
  padcnt := .noValue 0#8
  phase := 0#5
  op := .noValue 0#4
  lenop := .noValue 0#32
  status := ⟨false, .none, false⟩
  result := 0#32
  cmdPort := []
  payPort := []
  respPort := []
  resetIn := false
  storageFault := none
  maxLen := maxLen
  level := .command

/-- The machine right after reset (R38). -/
def State.reset : State := State.resetWith Config.resetMaxLen

end Sys2Proof.Machine
end

