-- ==== Sys2Proof/Machine/Flags.lean ====
section
/-! DEFINITION. STATUS and its codes (10_state.md R32; 60_exceptions.md R221, R230). -/

namespace Sys2Proof.Machine

/-- The code of a failure cause, the value of STATUS.ERR (R221). -/
def Cause.code : Cause → BitVec 3
  | .none => 0#3
  | .precond => 1#3
  | .short => 2#3
  | .verify => 3#3
  | .badmode => 4#3
  | .badcmd => 5#3
  | .capacity => 6#3

/-- STATUS.BUSY: 1 while PHASE ≠ IDLE (R32). -/
def State.busy (s : State) : Bool := s.phase != 0#5

/-- CSR 0, the STATUS word: BUSY bit 0, OK bit 1, ERR bits 4:2, PADUF bit 5, bits 31:6 zero (R32). -/
def State.statusWord (s : State) : Len :=
  0#26 ++ BitVec.ofBool s.status.paduf ++ s.status.err.code ++ BitVec.ofBool s.status.ok
    ++ BitVec.ofBool s.busy

/-- `cmd_ready` is 1 exactly when PHASE = IDLE (R103 item 1). -/
def State.cmdReady (s : State) : Bool := !s.busy

/-- STATUS.PADUF of a completing run command: set for a DECRYPT whose padding count exceeds `total`
(R205, R217, R230). -/
def padUnderflow (op : BitVec 4) (padcnt : Byte) (total : Len) : Bool :=
  decide (op = 0x9#4) && decide (total.toNat < padcnt.toNat)

/-- RESULT of a failed command: 0 for an update command (class bit `op[3]` = 0), SENTINEL for a run command
(R230). -/
def failValue (op : BitVec 4) : Len := if op.getLsbD 3 then Config.sentinel else 0#32

end Sys2Proof.Machine
end

