-- ==== Sys2Proof/Machine/Ops.lean ====
section
/-! DEFINITION. The shared operations: buffer memories (R15, R74), accepting a packet (R90, R212), the
completion of a command as a success or a failure (R230), which is what this engine has in place of taking
an exception (60_exceptions.md, opening; there is no return from one, R231), and reset (R250, R251). -/

namespace Sys2Proof.Machine

/-! ### Buffer memories -/

/-- The byte a memory holds at an index, if it holds one (R24, R37). -/
def Memory.lookup : Memory → Nat → Option Byte
  | [], _ => none
  | (a, b) :: m, k => if a = k then some b else Memory.lookup m k

/-- Writes one byte, keeping the indices rising. -/
def Memory.write : Memory → Nat → Byte → Memory
  | [], k, v => [(k, v)]
  | (a, b) :: m, k, v =>
    if k < a then (k, v) :: (a, b) :: m
    else if k = a then (k, v) :: m
    else (a, b) :: Memory.write m k v

/-- `MemWrite`: the bytes `bs` at indices `a`, `a + 1`, …, one at a time in ascending order (R15, R64). -/
def Memory.writeBytes (m : Memory) (a : Nat) : List Byte → Memory
  | [] => m
  | b :: bs => Memory.writeBytes (m.write a b) (a + 1) bs

/-- An engine read of one byte of a buffer. A byte that holds no value gives a free value (log entry 4); by
R37 no run reads one. -/
def Memory.byteAt (buffer : Buffer) (m : Memory) (a : Nat) : Byte :=
  match m.lookup a with
  | some b => b
  | none => Config.noValueByte buffer a

/-- `MemRead(S, a, 32)`: the 32 bytes from index `a` (R15). -/
def Memory.readBlock (buffer : Buffer) (m : Memory) (a : Nat) : Block :=
  Vector.ofFn fun k => m.byteAt buffer (a + k.val)

/-- `Alloc(PT, n)`: the extent becomes 0 and every byte of PT holds no value (R15, R74). -/
def State.allocPt (s : State) : State := { s with pt := [], ptExt := 0#32 }

/-- `Alloc(CT, n)` (R15, R74). -/
def State.allocCt (s : State) : State := { s with ct := [], ctExt := 0#32 }

/-! ### Accepting a packet -/

/-- The engine accepts a packet: OP <- `op`, LENOP <- `len`, and PHASE takes the next micro-step (R90, R212). -/
def State.latch (op : BitVec 4) (len : Len) (next : PhaseCode) (s : State) : State :=
  { s with op := .value op, lenop := .value len, phase := next }

/-! ### Completion -/

/-- The completion writes of R230: STATUS.OK, ERR, PADUF, RESULT, PHASE <- IDLE, and the response. -/
def State.complete (ok : Bool) (err : Cause) (paduf : Bool) (value : Len) (s : State) : State :=
  { s with
    status := ⟨ok, err, paduf⟩
    result := value
    phase := 0#5
    respPort := s.respPort ++ [⟨ok, value⟩] }

/-- `done(v)`, with the value of PADUF (R15, R230). -/
def State.done (paduf : Bool) (value : Len) (s : State) : State := s.complete true .none paduf value

/-- `fail <Cause>` (R15, R230): the one operation by which every failure is reported. -/
def State.fail (cause : Cause) (s : State) : State :=
  s.complete false cause false (failValue s.op.bits)

/-! ### Reset -/

/-- The payload port after a reset: the bytes delivered for an update that is abandoned in UPD go with it, since
its packet was accepted (R90) and R251 leaves nothing of it; bytes beyond its count (R93) are not the
command's. Log entry 10. -/
def State.payloadAfterReset (s : State) : List Byte :=
  if s.phase = 1#5 then s.payPort.drop (payloadBytes s.maxLen s.op.bits s.lenop.bits) else s.payPort

/-- What the reset input does, in any PHASE: the engine's state becomes the reset state (R250, R251), and an
update in progress loses the payload delivered for it. What else is on the ports and the model's own fields are
the host's and stay. Log entry 10. -/
def State.toReset (s : State) : State :=
  { State.resetWith s.maxLen with
    cmdPort := s.cmdPort
    payPort := s.payloadAfterReset
    respPort := s.respPort
    resetIn := s.resetIn
    storageFault := s.storageFault
    level := s.level }

end Sys2Proof.Machine
end

