-- ==== Sys2Proof/Machine/Operands.lean ====
section
/-! DEFINITION. The operands of commands: the payload (R93, R94) and the recorded input length with the
block count it gives (R183; 43_block_driver.md section 3). -/

namespace Sys2Proof.Machine

/-- The 32 payload bytes of SET_IV and SET_KEY, index 0 first, and what stays on the payload port; `none`
while fewer have arrived (R94, R103 item 2). -/
def takeBlock (port : List Byte) : Option (Block × List Byte) :=
  if h : 32 ≤ port.length then
    some (Vector.ofFn fun k => port[k.val]'(Nat.lt_of_lt_of_le k.isLt h), port.drop 32)
  else none

/-- The `n` payload bytes of a text update, index 0 first, and what stays on the payload port; `none` while
fewer have arrived (R94, R103 item 2). -/
def takeBytes (n : Nat) (port : List Byte) : Option (List Byte × List Byte) :=
  if n ≤ port.length then some (port.take n, port.drop n) else none

/-- `L`: PT_LEN when OP = 0x8, CT_LEN when OP = 0x9 (43_block_driver.md section 3). -/
def State.inputLen (s : State) : Len := if s.op.bits = 0x8#4 then s.ptLen else s.ctLen

/-- `nmemb = L div 32` (R183). -/
def blockCount (l : Len) : Len := l / 32#32

/-- `total = nmemb × 32` (R183). -/
def totalBytes (l : Len) : Len := blockCount l * 32#32

/-- The buffer index of the current block: `32 × BLKCNT` (R63). -/
def State.blockIndex (s : State) : Len := 32#32 * s.blkcnt.bits

/-- The 32 bytes from index `a` exist in a buffer of MAX_LEN bytes (R24, R25). -/
def State.blockInBuffer (s : State) (a : Len) : Bool := decide (a.toNat + 32 ≤ s.maxLen)

end Sys2Proof.Machine
end

