-- ==== Sys2Proof/Machine/Keystream.lean ====
section
/-! DEFINITION. The Keystream component (41_keystream.md): XOR, DERIVE, CHAIN_ENC, CHAIN_DEC, and the
micro-steps that use them. -/

namespace Sys2Proof.Machine

/-- XOR, general form (R140): `a`, `b` the inputs, `o` the output of capacity `o.length`; answers the count
and the output after. -/
def xorGeneral (a b o : List Byte) : Nat × List Byte :=
  if o.length < a.length ∨ o.length < b.length then (0, o)
  else
    let n := min a.length b.length
    (n, (a.zip b).map (fun p => p.1 ^^^ p.2) ++ o.drop n)

/-- XOR as the engine uses it: 32 independent byte lanes (R141). -/
def xorBlock (a b : Block) : Block := Vector.ofFn fun k => a[k] ^^^ b[k]

/-- DERIVE: KEY xor IV (R142). -/
def derive (key iv : Block) : Block := xorBlock key iv

/-- CHAIN_DEC (R144), under either reading of DEC_CHAIN. -/
def chainDec (reading : DecChain) (keyround fed : Block) : Block :=
  match reading with
  | .xorFed => xorBlock keyround fed
  | .copyFed => fed

/-- Micro-step E_XOR (R189). -/
def execEXor (s : State) : Host.Outcome State Fault Refusal :=
  .next { s with fed := .value (xorBlock s.blk.bits s.keyround.bits), phase := 7#5 }

/-- Micro-step E_CHAIN (R190): CHAIN_ENC (R143). -/
def execEChain (s : State) : Host.Outcome State Fault Refusal :=
  .next { s with keyround := .value s.fed.bits, phase := 8#5 }

/-- Micro-step D_XOR (R200). -/
def execDXor (s : State) : Host.Outcome State Fault Refusal :=
  .next { s with out := .value (xorBlock s.fed.bits s.keyround.bits), phase := 17#5 }

/-- Micro-step D_CHAIN (R202): CHAIN_DEC (R144). -/
def execDChain (s : State) : Host.Outcome State Fault Refusal :=
  .next { s with
    keyround := .value (chainDec Config.decChain s.keyround.bits s.fed.bits)
    phase := 19#5 }

end Sys2Proof.Machine
end

