-- ==== Sys2Proof/Machine/Matrix.lean ====
section
/-! DEFINITION. The BlockMatrix component (42_matrix.md): LOAD, the three swap groups, PERMUTE, INVPERMUTE,
EXPORT, and the micro-steps that use them. -/

namespace Sys2Proof.Machine

/-- Byte index of cell `[r][c]`: `c + 8*r` (R160). -/
def cellIndex (r : Fin 4) (c : Fin 8) : Fin 32 :=
  ⟨c.val + 8 * r.val, by omega⟩

/-- Row of byte `j`: `j div 8` (R160). -/
def cellRow (j : Fin 32) : Fin 4 := ⟨j.val / 8, by omega⟩

/-- Column of byte `j`: `j mod 8` (R160). -/
def cellCol (j : Fin 32) : Fin 8 := ⟨j.val % 8, by omega⟩

/-- A matrix from its cells. -/
def matrixOf (f : Fin 4 → Fin 8 → Cell) : Matrix := Vector.ofFn fun r => Vector.ofFn fun c => f r c

/-- Every cell 0 (R170). -/
def zeroMatrix : Matrix := matrixOf fun _ _ => 0#32

/-- LOAD: `MATRIX[r][c] <- sext_32(s[c + 8*r])` (R161). -/
def loadMatrix (s : Block) : Matrix := matrixOf fun r c => (s[cellIndex r c]).signExtend 32

/-- The row that row `r` takes its cells from in group 1: rows 0 and 2 change places (R162). -/
def swap02 (r : Fin 4) : Fin 4 := if r = 0 then 2 else if r = 2 then 0 else r

/-- The row that row `r` takes its cells from in group 2: rows 1 and 3 change places (R163). -/
def swap13 (r : Fin 4) : Fin 4 := if r = 1 then 3 else if r = 3 then 1 else r

/-- The column that column `c` takes its cell from in group 3: the pairs (0,7), (1,6), (2,5), (3,4) change
places (R164). -/
def mirrorCol (c : Fin 8) : Fin 8 :=
  match c with
  | 0 => 7 | 7 => 0
  | 1 => 6 | 6 => 1
  | 2 => 5 | 5 => 2
  | 3 => 4 | 4 => 3

/-- PERMUTE, group 1 (R162). -/
def permGroup1 (m : Matrix) : Matrix := matrixOf fun r c => m[swap02 r][c]

/-- PERMUTE, group 2 (R163). -/
def permGroup2 (m : Matrix) : Matrix := matrixOf fun r c => m[swap13 r][c]

/-- PERMUTE, group 3 (R164). -/
def permGroup3 (m : Matrix) : Matrix := matrixOf fun r c => m[r][mirrorCol c]

/-- PERMUTE: groups 1, 2, 3 in order (R165). -/
def permute (m : Matrix) : Matrix := permGroup3 (permGroup2 (permGroup1 m))

/-- INVPERMUTE: "the exact same three swap groups, applied in the same order" (R166). -/
def invPermute (m : Matrix) : Matrix := permGroup3 (permGroup2 (permGroup1 m))

/-- EXPORT: `d[c + 8*r] <- trunc_8(MATRIX[r][c])` (R167). -/
def exportMatrix (m : Matrix) : Block := Vector.ofFn fun j => (m[cellRow j][cellCol j]).setWidth 8

/-- Micro-step E_LOAD (R191). -/
def execELoad (s : State) : Host.Outcome State Fault Refusal :=
  .next { s with matrix := .value (loadMatrix s.fed.bits), phase := 9#5 }

/-- Micro-step E_PERM (R192). -/
def execEPerm (s : State) : Host.Outcome State Fault Refusal :=
  .next { s with matrix := .value (permute s.matrix.bits), phase := 10#5 }

/-- Micro-step E_EXPORT (R193). -/
def execEExport (s : State) : Host.Outcome State Fault Refusal :=
  .next { s with out := .value (exportMatrix s.matrix.bits), phase := 11#5 }

/-- Micro-step D_LOAD (R197). -/
def execDLoad (s : State) : Host.Outcome State Fault Refusal :=
  .next { s with matrix := .value (loadMatrix s.blk.bits), phase := 14#5 }

/-- Micro-step D_INVPERM (R198). -/
def execDInvperm (s : State) : Host.Outcome State Fault Refusal :=
  .next { s with matrix := .value (invPermute s.matrix.bits), phase := 15#5 }

/-- Micro-step D_EXPORT (R199). -/
def execDExport (s : State) : Host.Outcome State Fault Refusal :=
  .next { s with fed := .value (exportMatrix s.matrix.bits), phase := 16#5 }

end Sys2Proof.Machine
end

