-- ==== Sys2Proof/Machine/PaddingStrip.lean ====
section
/-! DEFINITION. The strip step of DECRYPT (44_padding_strip.md) and the micro-step D_STRIP. -/

namespace Sys2Proof.Machine

/-- The terminator write: `if 1 ≤ p and p ≤ total then PT[total − p] <- TERM` (R214, R216). -/
def writeTerminator (m : Memory) (total : Len) (p : Byte) : Memory :=
  if 1 ≤ p.toNat ∧ p.toNat ≤ total.toNat then m.write (total.toNat - p.toNat) Config.term else m

/-- STRIP (R204, R214): PADCNT <- PT[TOTAL − 1], the terminator, OUTLEN <- (OUTLEN − PADCNT) mod 2^32. TOTAL = 0
makes the index `TOTAL − 1` one that PT does not have (log entry 5). -/
def State.strip (s : State) : Host.Outcome State Fault Refusal :=
  let last := (s.total.bits - 1#32).toNat
  if last < s.maxLen then
    let p := s.pt.byteAt .pt last
    .next { s with
      padcnt := .value p
      pt := writeTerminator s.pt s.total.bits p
      outlen := .value (s.outlen.bits - p.setWidth 32) }
  else .fault (.outsideBuffer .pt last)

/-- Micro-step D_STRIP (R204). -/
def execDStrip (s : State) : Host.Outcome State Fault Refusal :=
  match s.strip with
  | .next t => .next { t with phase := 21#5 }
  | .fault r => .fault r
  | .refused r => .refused r

end Sys2Proof.Machine
end

