-- ==== Sys2Proof/Machine/BlockDriver.lean ====
section
/-! DEFINITION. The run family (43_block_driver.md): ENCRYPT, DECRYPT and RUN_RSVD at the command level
(R180, R181, R96), and the micro-steps of the control state machine (R185 to R205, R212). -/

namespace Sys2Proof.Machine

/-! ### Parts both levels share -/

/-- The precondition test (R182): IV, key and the input text must be set. -/
def State.unset (s : State) : Bool :=
  decide (s.ivLen = 0#32) || decide (s.keyLen = 0#32) || decide (s.inputLen = 0#32)

/-- R_INIT's writes (R186): DERIVE, the matrix cleared, the counters, the output buffer allocated. -/
def State.initRun (s : State) : State :=
  let s1 := { s with
    keyround := .value (derive s.key.bits s.iv.bits)
    matrix := .value zeroMatrix
    nmemb := .value (blockCount s.inputLen)
    total := .value (totalBytes s.inputLen)
    blkcnt := .value 0#32
    outlen := .value 0#32 }
  if s.op.bits = 0x8#4 then s1.allocCt else s1.allocPt

/-- R_DONE's writes (R205): the length field of the output, then `done(OUTLEN)`. -/
def State.finishRun (s : State) : State :=
  let s1 := if s.op.bits = 0x8#4 then { s with ctLen := s.outlen.bits } else { s with ptLen := s.outlen.bits }
  s1.done (padUnderflow s.op.bits s.padcnt.bits s.total.bits) s.outlen.bits

/-! ### The command level -/

/-- One pass of the loop of ENCRYPT, block `i` = BLKCNT (R180). -/
def State.encryptBlock (s : State) : State :=
  let at32 := s.blockIndex
  let blk := s.pt.readBlock .pt at32.toNat
  let fed := xorBlock blk s.keyround.bits
  let matrix := permute (loadMatrix fed)
  let out := exportMatrix matrix
  { s with
    blk := .value blk
    fed := .value fed
    keyround := .value fed
    matrix := .value matrix
    out := .value out
    ct := s.ct.writeBytes at32.toNat out.toList
    ctExt := at32 + 32#32
    outlen := .value (s.outlen.bits + 32#32)
    blkcnt := .value (s.blkcnt.bits + 1#32) }

/-- One pass of the loop of DECRYPT, block `i` = BLKCNT (R181). -/
def State.decryptBlock (s : State) : State :=
  let at32 := s.blockIndex
  let blk := s.ct.readBlock .ct at32.toNat
  let matrix := invPermute (loadMatrix blk)
  let fed := exportMatrix matrix
  let out := xorBlock fed s.keyround.bits
  { s with
    blk := .value blk
    matrix := .value matrix
    fed := .value fed
    out := .value out
    pt := s.pt.writeBytes at32.toNat out.toList
    ptExt := at32 + 32#32
    keyround := .value (chainDec Config.decChain s.keyround.bits fed)
    outlen := .value (s.outlen.bits + 32#32)
    blkcnt := .value (s.blkcnt.bits + 1#32) }

/-- The loop "for block index 0..nmemb-1", strictly in order (R149, R180). -/
def State.encryptBlocks : Nat → State → State
  | 0, s => s
  | n + 1, s => State.encryptBlocks n s.encryptBlock

/-- The loop of DECRYPT (R149, R181). -/
def State.decryptBlocks : Nat → State → State
  | 0, s => s
  | n + 1, s => State.decryptBlocks n s.decryptBlock

/-- ENCRYPT (R180). -/
def State.encryptCall (s : State) : State :=
  if s.ivLen = 0#32 ∨ s.keyLen = 0#32 ∨ s.ptLen = 0#32 then s.fail .precond
  else if s.maxLen < s.ptLen.toNat then s.fail .capacity
  else
    let t := State.encryptBlocks (blockCount s.ptLen).toNat s.initRun
    { t with ctLen := t.outlen.bits }.done false t.outlen.bits

/-- DECRYPT (R181). -/
def State.decryptCall (s : State) : Host.Outcome State Fault Refusal :=
  if s.ivLen = 0#32 ∨ s.keyLen = 0#32 ∨ s.ctLen = 0#32 then .next (s.fail .precond)
  else if s.maxLen < s.ctLen.toNat then .next (s.fail .capacity)
  else
    match (State.decryptBlocks (blockCount s.ctLen).toNat s.initRun).strip with
    | .next t =>
      .next ({ t with ptLen := t.outlen.bits }.done (decide (t.total.bits.toNat < t.padcnt.bits.toNat))
        t.outlen.bits)
    | .fault r => .fault r
    | .refused r => .refused r

/-- The command ENCRYPT. -/
def execEncrypt (len : Len) (s : State) : Host.Outcome State Fault Refusal :=
  .next (s.latch 0x8#4 len 2#5).encryptCall

/-- The command DECRYPT. -/
def execDecrypt (len : Len) (s : State) : Host.Outcome State Fault Refusal :=
  (s.latch 0x9#4 len 2#5).decryptCall

/-- The command RUN_RSVD, run selectors 2 and 3 (R96, R226). -/
def execRunRsvdLow (sel : BitVec 1) (len : Len) (s : State) : Host.Outcome State Fault Refusal :=
  .next ((s.latch (0b101#3 ++ sel) len 2#5).fail .badcmd)

/-- The command RUN_RSVD, run selectors 4 to 7 (R96, R226). -/
def execRunRsvdHigh (sel : BitVec 2) (len : Len) (s : State) : Host.Outcome State Fault Refusal :=
  .next ((s.latch (0b11#2 ++ sel) len 2#5).fail .badcmd)

/-! ### The micro-step level -/

/-- Micro-step IDLE (R212): accept the packet that is presented; with none, change nothing. -/
def execIdle (s : State) : Host.Outcome State Fault Refusal :=
  match s.cmdPort with
  | [] => .next s
  | h :: rest =>
    .next ({ s with cmdPort := rest }.latch (opField h) (lenField h)
      (if (opField h).getLsbD 3 then 2#5 else 1#5))

/-- Micro-step R_CHECK (R185): BADCMD, then PRECOND, then CAPACITY (R229). -/
def execRCheck (s : State) : Host.Outcome State Fault Refusal :=
  .next
    (if 2 ≤ (s.op.bits.extractLsb' 0 3).toNat then s.fail .badcmd
     else if s.unset then s.fail .precond
     else if s.maxLen < s.inputLen.toNat then s.fail .capacity
     else { s with phase := 3#5 })

/-- Micro-step R_INIT (R186). -/
def execRInit (s : State) : Host.Outcome State Fault Refusal :=
  .next { s.initRun with phase := 4#5 }

/-- Micro-step R_TEST (R187), the loop test. -/
def execRTest (s : State) : Host.Outcome State Fault Refusal :=
  .next { s with
    phase :=
      if s.blkcnt.bits.toNat < s.nmemb.bits.toNat then
        (if s.op.bits = 0x8#4 then 5#5 else 12#5)
      else
        (if s.op.bits = 0x8#4 then 21#5 else 20#5) }

/-- Micro-step E_COPYIN (R188). -/
def execECopyin (s : State) : Host.Outcome State Fault Refusal :=
  if s.blockInBuffer s.blockIndex then
    .next { s with blk := .value (s.pt.readBlock .pt s.blockIndex.toNat), phase := 6#5 }
  else .fault (.outsideBuffer .pt s.blockIndex.toNat)

/-- Micro-step E_COPYOUT (R194). -/
def execECopyout (s : State) : Host.Outcome State Fault Refusal :=
  if s.blockInBuffer s.blockIndex then
    .next { s with
      ct := s.ct.writeBytes s.blockIndex.toNat s.out.bits.toList
      ctExt := s.blockIndex + 32#32
      phase := 19#5 }
  else .fault (.outsideBuffer .ct s.blockIndex.toNat)

/-- Micro-step D_COPYIN (R196). -/
def execDCopyin (s : State) : Host.Outcome State Fault Refusal :=
  if s.blockInBuffer s.blockIndex then
    .next { s with blk := .value (s.ct.readBlock .ct s.blockIndex.toNat), phase := 13#5 }
  else .fault (.outsideBuffer .ct s.blockIndex.toNat)

/-- Micro-step D_COPYOUT (R201). -/
def execDCopyout (s : State) : Host.Outcome State Fault Refusal :=
  if s.blockInBuffer s.blockIndex then
    .next { s with
      pt := s.pt.writeBytes s.blockIndex.toNat s.out.bits.toList
      ptExt := s.blockIndex + 32#32
      phase := 18#5 }
  else .fault (.outsideBuffer .pt s.blockIndex.toNat)

/-- Micro-step R_NEXT (R203). -/
def execRNext (s : State) : Host.Outcome State Fault Refusal :=
  .next { s with
    outlen := .value (s.outlen.bits + 32#32)
    blkcnt := .value (s.blkcnt.bits + 1#32)
    phase := 4#5 }

/-- Micro-step R_DONE (R205). -/
def execRDone (s : State) : Host.Outcome State Fault Refusal :=
  .next s.finishRun

end Sys2Proof.Machine
end

