-- ==== Sys2Proof/Machine/ContextUpdate.lean ====
section
/-! DEFINITION. The update family (40_context_update.md): SET_IV, SET_KEY, SET_PLAINTEXT, SET_CIPHERTEXT,
UPD_OTHER and the micro-step UPD. -/

namespace Sys2Proof.Machine

/-- What the 32 cells of KEY or IV hold after the copy of `payload`: the payload, or what a storage fault
leaves (R121, R224, 93 U3; log entry 11). -/
def State.stored (s : State) (payload : Block) : Block :=
  match s.storageFault with
  | some b => b
  | none => payload

/-- SET_IV (R121). While fewer than 32 payload bytes have arrived the engine waits in UPD (R103 item 2). -/
def State.updateIv (s : State) : State :=
  match takeBlock s.payPort with
  | none => s
  | some (payload, rest) =>
    let s1 := { s with payPort := rest, iv := .value (s.stored payload), storageFault := none }
    if s1.iv.bits ≠ payload then s1.fail .verify
    else { s1 with ivLen := 32#32 }.done false 1#32

/-- SET_KEY (R122). -/
def State.updateKey (s : State) : State :=
  match takeBlock s.payPort with
  | none => s
  | some (payload, rest) =>
    let s1 := { s with payPort := rest, key := .value (s.stored payload), storageFault := none }
    if s1.key.bits ≠ payload then s1.fail .verify
    else { s1 with keyLen := 32#32 }.done false 1#32

/-- SET_PLAINTEXT (R123): SHORT, then CAPACITY (R128), then Alloc and copy. The comparison of the buffer with
itself is left out, as R123 allows: it never fails. -/
def State.updatePlaintext (s : State) : State :=
  let len := s.lenop.bits
  if len.toNat < 32 then s.fail .short
  else if s.maxLen < len.toNat then s.fail .capacity
  else
    match takeBytes len.toNat s.payPort with
    | none => s
    | some (payload, rest) =>
      let s1 := { s with payPort := rest }.allocPt
      { s1 with pt := s1.pt.writeBytes 0 payload, ptExt := len, ptLen := len }.done false 1#32

/-- SET_CIPHERTEXT (R124): as SET_PLAINTEXT, with no verification step; the byte at index `len` is not
written (R77). -/
def State.updateCiphertext (s : State) : State :=
  let len := s.lenop.bits
  if len.toNat < 32 then s.fail .short
  else if s.maxLen < len.toNat then s.fail .capacity
  else
    match takeBytes len.toNat s.payPort with
    | none => s
    | some (payload, rest) =>
      let s1 := { s with payPort := rest }.allocCt
      { s1 with ct := s1.ct.writeBytes 0 payload, ctExt := len, ctLen := len }.done false 1#32

/-- UPD_OTHER (R125). -/
def State.updateOther (s : State) : State := s.fail .badmode

/-- The command SET_IV. -/
def execSetIv (len : Len) (s : State) : Host.Outcome State Fault Refusal :=
  .next (s.latch 0x0#4 len 1#5).updateIv

/-- The command SET_KEY. -/
def execSetKey (len : Len) (s : State) : Host.Outcome State Fault Refusal :=
  .next (s.latch 0x1#4 len 1#5).updateKey

/-- The command SET_PLAINTEXT. -/
def execSetPlaintext (len : Len) (s : State) : Host.Outcome State Fault Refusal :=
  .next (s.latch 0x2#4 len 1#5).updatePlaintext

/-- The command SET_CIPHERTEXT. -/
def execSetCiphertext (len : Len) (s : State) : Host.Outcome State Fault Refusal :=
  .next (s.latch 0x3#4 len 1#5).updateCiphertext

/-- The command UPD_OTHER, mode 4 to 7. -/
def execUpdOther (mm : BitVec 2) (len : Len) (s : State) : Host.Outcome State Fault Refusal :=
  .next (s.latch (0b01#2 ++ mm) len 1#5).updateOther

/-- Micro-step UPD (R120): the whole update command, selected by `OP[2:0]`. -/
def execUpd (s : State) : Host.Outcome State Fault Refusal :=
  let mode := s.op.bits.extractLsb' 0 3
  .next
    (if mode = 0#3 then s.updateIv
     else if mode = 1#3 then s.updateKey
     else if mode = 2#3 then s.updatePlaintext
     else if mode = 3#3 then s.updateCiphertext
     else s.updateOther)

end Sys2Proof.Machine
end

