-- ==== Sys2Proof/Machine/Dispatch.lean ====
section
/-! DEFINITION. The meaning of each instruction, one arm for each constructor. -/

namespace Sys2Proof.Machine

def exec (i : Instr) (s : State) : Host.Outcome State Fault Refusal :=
  match i with
  | .setIv len => Sys2Proof.Machine.execSetIv len s
  | .setKey len => Sys2Proof.Machine.execSetKey len s
  | .setPlaintext len => Sys2Proof.Machine.execSetPlaintext len s
  | .setCiphertext len => Sys2Proof.Machine.execSetCiphertext len s
  | .updOther mm len => Sys2Proof.Machine.execUpdOther mm len s
  | .encrypt len => Sys2Proof.Machine.execEncrypt len s
  | .decrypt len => Sys2Proof.Machine.execDecrypt len s
  | .runRsvdLow sel len => Sys2Proof.Machine.execRunRsvdLow sel len s
  | .runRsvdHigh sel len => Sys2Proof.Machine.execRunRsvdHigh sel len s
  | .idle => Sys2Proof.Machine.execIdle s
  | .upd => Sys2Proof.Machine.execUpd s
  | .rCheck => Sys2Proof.Machine.execRCheck s
  | .rInit => Sys2Proof.Machine.execRInit s
  | .rTest => Sys2Proof.Machine.execRTest s
  | .eCopyin => Sys2Proof.Machine.execECopyin s
  | .eXor => Sys2Proof.Machine.execEXor s
  | .eChain => Sys2Proof.Machine.execEChain s
  | .eLoad => Sys2Proof.Machine.execELoad s
  | .ePerm => Sys2Proof.Machine.execEPerm s
  | .eExport => Sys2Proof.Machine.execEExport s
  | .eCopyout => Sys2Proof.Machine.execECopyout s
  | .dCopyin => Sys2Proof.Machine.execDCopyin s
  | .dLoad => Sys2Proof.Machine.execDLoad s
  | .dInvperm => Sys2Proof.Machine.execDInvperm s
  | .dExport => Sys2Proof.Machine.execDExport s
  | .dXor => Sys2Proof.Machine.execDXor s
  | .dCopyout => Sys2Proof.Machine.execDCopyout s
  | .dChain => Sys2Proof.Machine.execDChain s
  | .rNext => Sys2Proof.Machine.execRNext s
  | .dStrip => Sys2Proof.Machine.execDStrip s
  | .rDone => Sys2Proof.Machine.execRDone s

end Sys2Proof.Machine
end

