-- ==== Sys2Proof/Machine/Fetch.lean ====
section
/-! DEFINITION. Which instruction is next. The engine fetches no instructions from any memory (R73): PHASE
selects the micro-step (R30), and in IDLE the packet on the command port is what there is to run (R212,
R103). Also the host's placing of one instruction there. -/

namespace Sys2Proof.Machine

/-- The code of the next instruction and the state as the instruction finds it. In IDLE, at the command level,
a presented header is taken off the command port (R103 item 1) and is the code; in every other case the code
is the content of PHASE. -/
def State.fetch (s : State) : Code × State :=
  if s.phase = 0#5 ∧ s.level = .command then
    match s.cmdPort with
    | h :: rest => (.header h, { s with cmdPort := rest })
    | [] => (.phase s.phase, s)
  else (.phase s.phase, s)

/-- A header placed as the next packet, with the payload bytes R93 asks for, all zero. -/
def State.placeHeader (s : State) (h : Header) : State :=
  { s with
    phase := 0#5
    level := .command
    resetIn := false
    cmdPort := h :: s.cmdPort
    payPort := List.replicate (payloadBytes s.maxLen (opField h) (lenField h)) 0#8 ++ s.payPort }

/-- A PHASE code placed as the next micro-step. -/
def State.placePhase (s : State) (p : PhaseCode) : State :=
  { s with phase := p, level := .microstep, resetIn := false }

/-- The code of `nbits` bits of value `w`, placed so that the very next step runs it; bits that are no code
of any kind leave the state as it is. Log entries 7, 13. -/
def State.placeWord (s : State) (nbits w : Nat) : State :=
  match codeOfWord nbits w with
  | .ok (.header h) => s.placeHeader h
  | .ok (.phase p) => s.placePhase p
  | .error _ => s

end Sys2Proof.Machine
end

