-- ==== Sys2Proof/Machine/HostPort.lean ====
section
/-! DEFINITION. What the host can do (30_encoding.md R103, 20_memory.md R60 to R67): present a packet, drive
the reset input, read one location. Reads change nothing (R65), so the read port is a function. -/

namespace Sys2Proof.Machine

/-- The host presents a packet: its header waits on the command port, its payload bytes on the payload port
(R103 items 1 and 2). -/
def State.present (p : Packet) (s : State) : State :=
  { s with cmdPort := s.cmdPort ++ [p.header], payPort := s.payPort ++ p.payload }

/-- The host drives the reset input (R103 item 5). While it is asserted the engine's state is the reset state
(R250). R250 fixes neither sampling by a clock nor how long the input must be held (91 N2). DESIGN CHOICE, log
entry 10: asserting it takes effect at once, so a host read that follows answers the reset state, and an
assertion of any length, with no step in it too, resets the engine. -/
def State.driveReset (asserted : Bool) (s : State) : State :=
  if asserted then { s.toReset with resetIn := true } else { s with resetIn := false }

/-- Why a host read is refused: "the port returns unspecified data, no state changes, no flag is set, and a
model gives the read no meaning" (R66). -/
inductive ReadRefusal where
  /-- Anything but STATUS while a command is in progress (R66 item 2, R265). -/
  | busy
  /-- An index the space does not have (R66 item 3). -/
  | noSuchIndex
  /-- A location that holds no value (R66 item 4, R37). -/
  | noValue
  deriving DecidableEq, Repr

/-- The CSRs (R34); 6 and above do not exist. -/
def State.readCsr (s : State) (index : Nat) : Except ReadRefusal Len :=
  match index with
  | 0 => .ok s.statusWord
  | 1 => .ok s.result
  | 2 => .ok s.ivLen
  | 3 => .ok s.keyLen
  | 4 => .ok s.ptLen
  | 5 => .ok s.ctLen
  | _ => .error .noSuchIndex

/-- One byte of a buffer memory of MAX_LEN bytes and extent `ext`, zero-extended (R66 items 3 and 4). -/
def readBuffer (maxLen : Nat) (m : Memory) (ext : Len) (index : Nat) : Except ReadRefusal Len :=
  if maxLen ≤ index then .error .noSuchIndex
  else if ext.toNat ≤ index then .error .noValue
  else
    match m.lookup index with
    | some b => .ok (b.setWidth 32)
    | none => .error .noValue

/-- One byte of KEYROUND, zero-extended (R66 items 3 and 4). -/
def readKeyround (r : Reg Block) (index : Nat) : Except ReadRefusal Len :=
  if h : index < 32 then
    if r.held then .ok ((r.bits[index]).setWidth 32) else .error .noValue
  else .error .noSuchIndex

/-- The read port (R66, R103 item 4): space CSR 0, PT 1, CT 2, KR 3 (R60). STATUS may be read at any time,
everything else only while PHASE = IDLE. -/
def State.hostRead (s : State) (space : BitVec 2) (index : Len) : Except ReadRefusal Len :=
  if space = 0#2 ∧ index = 0#32 then .ok s.statusWord
  else if s.busy then .error .busy
  else if space = 0#2 then s.readCsr index.toNat
  else if space = 1#2 then readBuffer s.maxLen s.pt s.ptExt index.toNat
  else if space = 2#2 then readBuffer s.maxLen s.ct s.ctExt index.toNat
  else readKeyround s.keyround index.toNat

end Sys2Proof.Machine
end

