-- ==== Sys2Proof/Machine/Step.lean ====
section
/-! DEFINITION. One step of the machine. -/

namespace Sys2Proof.Machine

/-- One step. While the reset input is asserted the engine's state is the reset state (R250, R251), and a step
gives it whatever the state before was; one such step is enough and no clock samples the input (R250 leaves both
open, 91 N2; DESIGN CHOICE, log entry 10). Otherwise the next code is decoded and run. A PHASE code that names no micro-step is refused by name. -/
def step (s : State) : Host.Outcome State Fault Refusal :=
  if s.resetIn then .next s.toReset
  else
    match decode s.fetch.1 with
    | .ok i => exec i s.fetch.2
    | .error _ => .refused (.unusedPhase s.phase)

/-- The instruction of `nbits` bits of value `w` placed where `step` takes its next instruction. -/
def State.withFetchWord (s : State) (nbits w : Nat) : State := s.placeWord nbits w

end Sys2Proof.Machine
end

