-- ==== Sys2Proof/WellFormed.lean ====
section
/-! DEFINITION. Well-formedness of packets (30_encoding.md R93), textual lines (R101) and the parameter
MAX_LEN (00_scope.md R9). A term of `Instr` needs no check: its operands have exactly the widths of their
fields, and every value of a field is legal to present (R97). -/

namespace Sys2Proof

/-- R93: "A packet is well formed when the host supplies exactly that many payload bytes." -/
def Packet.wellFormed (maxLen : Nat) (p : Packet) : Bool :=
  p.payload.length == payloadBytes maxLen (opField p.header) (lenField p.header)

/-- R101: the mode of `UPD_OTHER` is 4 to 7, the code of `RUN_RSVD` 10 to 15, and a text has a length that
the header's `len` can carry. -/
def Line.wellFormed : Line → Bool
  | .setIv _ => true
  | .setKey _ => true
  | .setPlaintext bytes => decide (bytes.length < 2 ^ 32)
  | .setCiphertext bytes => decide (bytes.length < 2 ^ 32)
  | .updOther m => decide (4 ≤ m ∧ m ≤ 7)
  | .encrypt => true
  | .decrypt => true
  | .runRsvd s => decide (10 ≤ s ∧ s ≤ 15)

/-- R9: 32 ≤ MAX_LEN ≤ 2^31. -/
def maxLenLegal (maxLen : Nat) : Bool := decide (32 ≤ maxLen ∧ maxLen ≤ 2 ^ 31)

end Sys2Proof
end

