-- ==== Sys2Proof/Safety.lean ====
section
/-! DEFINITION. The terms claims use: the invariant of the engine (10_state.md R36, extended to every
micro-step), which locations a micro-step reads (R37), and the closed forms of the chaining (R145). -/

namespace Sys2Proof.Machine

/-! ### The invariant -/

/-- What holds in every phase: R9, R36 items 1 to 4 as far as no run in progress suspends them, the meaning of
the extents (R24, R25), the canonical form of both memories, and the range of a cell (R27). -/
structure State.ContextInv (s : State) : Prop where
  maxLen : 32 ≤ s.maxLen ∧ s.maxLen ≤ 2 ^ 31
  keyLen : s.keyLen = 0#32 ∨ s.keyLen = 32#32
  ivLen : s.ivLen = 0#32 ∨ s.ivLen = 32#32
  keyHeld : s.keyLen = 32#32 → s.key.held = true
  ivHeld : s.ivLen = 32#32 → s.iv.held = true
  ptForm : s.pt.wf
  ctForm : s.ct.wf
  ptListed : ∀ a, (s.pt.lookup a).isSome = true ↔ a < s.ptExt.toNat
  ctListed : ∀ a, (s.ct.lookup a).isSome = true ↔ a < s.ctExt.toNat
  ptExt : s.ptExt.toNat ≤ s.maxLen
  ctExt : s.ctExt.toNat ≤ s.maxLen
  ptWrapped : s.maxLen < s.ptLen.toNat → 2 ^ 32 - 223 ≤ s.ptLen.toNat
  ctLen : s.ctLen = 0#32 ∨ (32 ≤ s.ctLen.toNat ∧ s.ctLen.toNat ≤ s.maxLen)
  cells : s.matrix.held = true →
    ∀ (r : Fin 4) (c : Fin 8), s.matrix.bits[r][c] = ((s.matrix.bits[r][c]).setWidth 8).signExtend 32

/-- R36 item 4: a PT_LEN that is a length is at most the extent. Suspended while a DECRYPT refills PT. -/
def State.ptReadable (s : State) : Prop := s.ptLen.toNat ≤ s.maxLen → s.ptLen.toNat ≤ s.ptExt.toNat

/-- R36 item 3: CT_LEN ≤ CT_EXT. Suspended while an ENCRYPT refills CT. -/
def State.ctReadable (s : State) : Prop := s.ctLen.toNat ≤ s.ctExt.toNat

/-- The two operation codes a run command past R_CHECK can have. -/
def State.opIs (s : State) (op : BitVec 4) : Prop := s.op = .value op

/-- What R_CHECK has established (R185): the input text is set and fits. -/
structure State.Checked (s : State) : Prop where
  ivSet : s.ivLen = 32#32
  keySet : s.keyLen = 32#32
  inputSet : s.inputLen ≠ 0#32
  inputFits : s.inputLen.toNat ≤ s.maxLen
  inputReadable : s.inputLen.toNat ≤ (if s.op.bits = 0x8#4 then s.ptExt else s.ctExt).toNat

/-- The extent of the output buffer of the command in progress. -/
def State.outputExt (s : State) : Nat := (if s.op.bits = 0x8#4 then s.ctExt else s.ptExt).toNat

/-- What holds from R_INIT to R_DONE (R186, R183, R29): the counters hold values, `nmemb` and `total` are those
of the input length, `done` blocks have been counted. -/
structure State.LoopInv (s : State) : Prop where
  checked : s.Checked
  keyroundHeld : s.keyround.held = true
  matrixHeld : s.matrix.held = true
  nmemb : s.nmemb = .value (blockCount s.inputLen)
  total : s.total = .value (totalBytes s.inputLen)
  blkcntHeld : s.blkcnt.held = true
  blkcnt : s.blkcnt.bits.toNat ≤ s.nmemb.bits.toNat
  outlenHeld : s.outlen.held = true

/-- Inside the loop before the copy-out of block BLKCNT: `OUTLEN = 32 × BLKCNT` (R29) is also the extent. -/
structure State.BodyInv (s : State) (op : BitVec 4) : Prop where
  op : s.opIs op
  loop : s.LoopInv
  inside : s.blkcnt.bits.toNat < s.nmemb.bits.toNat
  outlen : s.outlen.bits.toNat = 32 * s.blkcnt.bits.toNat
  ext : s.outputExt = 32 * s.blkcnt.bits.toNat

/-- Inside the loop after the copy-out of block BLKCNT. -/
structure State.CopiedInv (s : State) (op : BitVec 4) : Prop where
  op : s.opIs op
  loop : s.LoopInv
  inside : s.blkcnt.bits.toNat < s.nmemb.bits.toNat
  outlen : s.outlen.bits.toNat = 32 * s.blkcnt.bits.toNat
  ext : s.outputExt = 32 * s.blkcnt.bits.toNat + 32

/-- After the loop: the output buffer holds `total` bytes. -/
structure State.LoopDone (s : State) (op : BitVec 4) : Prop where
  op : s.opIs op
  loop : s.LoopInv
  ext : s.outputExt = s.total.bits.toNat

/-- The invariant of the phase the engine is in; the unused codes 22 to 31 are never reached (R99). -/
def State.PhaseInv (s : State) : Prop :=
  match s.phase.toNat with
  | 0 => s.ptReadable ∧ s.ctReadable
  | 1 => s.ptReadable ∧ s.ctReadable ∧ s.op.held = true ∧ s.lenop.held = true ∧ s.op.bits.getLsbD 3 = false
  | 2 => s.ptReadable ∧ s.ctReadable ∧ s.op.held = true ∧ s.op.bits.getLsbD 3 = true
  | 3 => s.ptReadable ∧ s.ctReadable ∧ (s.opIs 0x8#4 ∨ s.opIs 0x9#4) ∧ s.Checked
  | 4 => (s.opIs 0x8#4 ∨ s.opIs 0x9#4) ∧ s.LoopInv ∧ s.outlen.bits.toNat = 32 * s.blkcnt.bits.toNat ∧
      s.outputExt = 32 * s.blkcnt.bits.toNat
  | 5 => s.BodyInv 0x8#4
  | 6 => s.BodyInv 0x8#4 ∧ s.blk.held = true
  | 7 => s.BodyInv 0x8#4 ∧ s.fed.held = true
  | 8 => s.BodyInv 0x8#4 ∧ s.fed.held = true
  | 9 => s.BodyInv 0x8#4
  | 10 => s.BodyInv 0x8#4
  | 11 => s.BodyInv 0x8#4 ∧ s.out.held = true
  | 12 => s.BodyInv 0x9#4
  | 13 => s.BodyInv 0x9#4 ∧ s.blk.held = true
  | 14 => s.BodyInv 0x9#4
  | 15 => s.BodyInv 0x9#4
  | 16 => s.BodyInv 0x9#4 ∧ s.fed.held = true
  | 17 => s.BodyInv 0x9#4 ∧ s.fed.held = true ∧ s.out.held = true
  | 18 => s.CopiedInv 0x9#4 ∧ s.fed.held = true
  | 19 => s.CopiedInv 0x8#4 ∨ s.CopiedInv 0x9#4
  | 20 => s.LoopDone 0x9#4 ∧ s.outlen.bits = s.total.bits
  | 21 => (s.LoopDone 0x8#4 ∧ s.outlen.bits = s.total.bits) ∨
      (s.LoopDone 0x9#4 ∧ s.padcnt.held = true ∧ s.outlen.bits = s.total.bits - s.padcnt.bits.setWidth 32)
  | _ => False

/-- The invariant every step keeps. -/
structure State.Inv (s : State) : Prop where
  context : s.ContextInv
  phase : s.PhaseInv

/-! ### What a micro-step reads -/

/-- Every location that the micro-step of the present PHASE reads holds a value (R37). -/
def State.readsHeld (s : State) : Prop :=
  match s.phase.toNat with
  | 1 => s.op.held = true ∧ s.lenop.held = true
  | 2 => s.op.held = true
  | 3 => s.op.held = true ∧ s.key.held = true ∧ s.iv.held = true
  | 4 => s.op.held = true ∧ s.blkcnt.held = true ∧ s.nmemb.held = true
  | 5 => s.blkcnt.held = true ∧ ∀ k < 32, (s.pt.lookup (s.blockIndex.toNat + k)).isSome = true
  | 6 => s.blk.held = true ∧ s.keyround.held = true
  | 7 => s.fed.held = true
  | 8 => s.fed.held = true
  | 9 => s.matrix.held = true
  | 10 => s.matrix.held = true
  | 11 => s.out.held = true ∧ s.blkcnt.held = true
  | 12 => s.blkcnt.held = true ∧ ∀ k < 32, (s.ct.lookup (s.blockIndex.toNat + k)).isSome = true
  | 13 => s.blk.held = true
  | 14 => s.matrix.held = true
  | 15 => s.matrix.held = true
  | 16 => s.fed.held = true ∧ s.keyround.held = true
  | 17 => s.out.held = true ∧ s.blkcnt.held = true
  | 18 => s.fed.held = true ∧ s.keyround.held = true
  | 19 => s.outlen.held = true ∧ s.blkcnt.held = true
  | 20 => s.total.held = true ∧ s.outlen.held = true ∧
      (s.pt.lookup (s.total.bits - 1#32).toNat).isSome = true
  | 21 => s.op.held = true ∧ s.outlen.held = true ∧
      (s.op.bits = 0x9#4 → s.padcnt.held = true ∧ s.total.held = true)
  | _ => True

/-! ### States that agree in every value held -/

/-- Two registers that both hold no value, or both hold the same one (R37). -/
structure Reg.SameValue {α : Type} (r r' : Reg α) : Prop where
  held : r'.held = r.held
  bits : r.held = true → r'.bits = r.bits

/-- Two states that differ only in the bits of registers that hold no value. -/
structure State.SameValues (s s' : State) : Prop where
  rest : s' = { s with
    key := s'.key, iv := s'.iv, keyround := s'.keyround, matrix := s'.matrix, blk := s'.blk, fed := s'.fed,
    out := s'.out, blkcnt := s'.blkcnt, nmemb := s'.nmemb, total := s'.total, outlen := s'.outlen,
    padcnt := s'.padcnt, op := s'.op, lenop := s'.lenop }
  key : s.key.SameValue s'.key
  iv : s.iv.SameValue s'.iv
  keyround : s.keyround.SameValue s'.keyround
  matrix : s.matrix.SameValue s'.matrix
  blk : s.blk.SameValue s'.blk
  fed : s.fed.SameValue s'.fed
  out : s.out.SameValue s'.out
  blkcnt : s.blkcnt.SameValue s'.blkcnt
  nmemb : s.nmemb.SameValue s'.nmemb
  total : s.total.SameValue s'.total
  outlen : s.outlen.SameValue s'.outlen
  padcnt : s.padcnt.SameValue s'.padcnt
  op : s.op.SameValue s'.op
  lenop : s.lenop.SameValue s'.lenop

/-! ### Runs -/

/-- The outcome of `k` steps, ended by the first fault or refusal. -/
def steps : Nat → State → Host.Outcome State Fault Refusal
  | 0, s => .next s
  | k + 1, s =>
    match step s with
    | .next t => steps k t
    | .fault r => .fault r
    | .refused r => .refused r

/-! ### Closed forms -/

/-- Index `j xor 23`, where the permutation takes byte `j` of its output from (R165). -/
def mirrorIndex (j : Fin 32) : Fin 32 :=
  ⟨j.val ^^^ 23, Nat.xor_lt_two_pow (n := 5) j.isLt (by decide)⟩

/-- Byte `j` of K0 = KEY xor IV (R145). -/
def State.k0Byte (s : State) (j : Fin 32) : Byte := s.key.bits[j] ^^^ s.iv.bits[j]

/-- Byte `j` of the plaintext block `i` given to ENCRYPT (R61, R145). -/
def State.plainByte (s : State) (i : Nat) (j : Fin 32) : Byte := s.pt.byteAt .pt (32 * i + j.val)

/-- Byte `j` of F_i = K0 xor P_0 xor … xor P_i (R145). -/
def State.fedByte (s : State) : Nat → Fin 32 → Byte
  | 0, j => s.k0Byte j ^^^ s.plainByte 0 j
  | i + 1, j => State.fedByte s i j ^^^ s.plainByte (i + 1) j

/-- Byte `j` of G_i, the inverse permutation of ciphertext block `i` (R145). -/
def State.unpermutedByte (s : State) (i : Nat) (j : Fin 32) : Byte :=
  s.ct.byteAt .ct (32 * i + (mirrorIndex j).val)

/-- Byte `j` of Q_i, the block DECRYPT recovers: Q_0 = G_0 xor K0, Q_i = Q_(i−1) xor G_i (R145). -/
def State.recoveredByte (s : State) : Nat → Fin 32 → Byte
  | 0, j => s.unpermutedByte 0 j ^^^ s.k0Byte j
  | i + 1, j => State.recoveredByte s i j ^^^ s.unpermutedByte (i + 1) j

/-- Byte `j` of block `i` that DECRYPT recovers from what ENCRYPT made of the plaintext, with the same KEY and IV:
Q_0 = P_0, Q_1 = P_1 xor K0, Q_i = P_i xor Q_(i−2) (R146). -/
def State.roundTripByte (s : State) : Nat → Fin 32 → Byte
  | 0, j => s.plainByte 0 j
  | 1, j => s.plainByte 1 j ^^^ s.k0Byte j
  | i + 2, j => s.plainByte (i + 2) j ^^^ State.roundTripByte s i j

/-- PADUF is a recorded fault of the run (R217, 93 U1): the last command left no underflowed length. -/
def State.cleanLength (s : State) : Prop := s.status.paduf = false

end Sys2Proof.Machine
end

