-- ==== Sys2Proof/Certificates/Slice0/Obligations.lean ====
section
/-! DEFINITION. The statements for the provers. Each docstring names the rule of spec/ it formalises; where a
clause is the model's own choice the docstring says so and names the log entry (notes/assumptions/<n>.md).

In every statement about a next state the state is written out in full, so that the frame is part of it: a
field that the state update does not name keeps its value. Two things recur. A command that `exec` runs at
the command level latches OP and LENOP as it is accepted (R90; log entry 9), and a completion appends its
response to the response port (R98; log entry 7). -/

open Sys2Proof Sys2Proof.Machine

/-! ### Encoding -/

/-- Decoding the encoding of any instruction gives it back, with every operand at every value (R90, R92, R99). -/
def Obligations.DecodeOfEncodeIsTheInstruction : Prop :=
  ∀ i : Instr, decode (encode i) = .ok i

/-- A code that decodes is the encoding of the instruction it decodes to: no bit of a header or of a PHASE
code is dropped (R90, R92, R99). -/
def Obligations.EncodeOfDecodeIsTheCode : Prop :=
  ∀ (c : Code) (i : Instr), decode c = .ok i → encode i = c

/-- Headers E2, E3, E5, E10, E11, E13 to E15 of 95_test_vectors.md and PHASE codes of R99 decode to what they
stand for. -/
def Obligations.SampleWordsDecodeToTheirInstructions : Prop :=
  decode (.header 0x0FFFFFFFF#36) = .ok (.setIv 0xFFFFFFFF#32) ∧
  decode (.header 0x100000000#36) = .ok (.setKey 0#32) ∧
  decode (.header 0x200000040#36) = .ok (.setPlaintext 64#32) ∧
  decode (.header 0x300000060#36) = .ok (.setCiphertext 96#32) ∧
  decode (.header 0x500000000#36) = .ok (.updOther 1#2 0#32) ∧
  decode (.header 0x812345678#36) = .ok (.encrypt 0x12345678#32) ∧
  decode (.header 0x900000000#36) = .ok (.decrypt 0#32) ∧
  decode (.header 0xA00000000#36) = .ok (.runRsvdLow 0#1 0#32) ∧
  decode (.header 0xF00000000#36) = .ok (.runRsvdHigh 3#2 0#32) ∧
  decode (.phase 0b01011#5) = .ok .eCopyout ∧
  decode (.phase 0b10010#5) = .ok .dChain ∧
  decode (.phase 0b10101#5) = .ok .rDone

/-- All 16 operation codes have a meaning, `len` never changes which (R91, R92), and the header alone fixes the
number of payload bytes (R93, R100). -/
def Obligations.EveryOperationCodeHasItsMeaning : Prop :=
  ∀ (len : Len) (maxLen : Nat),
    (decodeHeader (headerOf 0x0#4 len) = .setIv len ∧ payloadBytes maxLen 0x0#4 len = 32) ∧
    (decodeHeader (headerOf 0x1#4 len) = .setKey len ∧ payloadBytes maxLen 0x1#4 len = 32) ∧
    (decodeHeader (headerOf 0x2#4 len) = .setPlaintext len ∧
      payloadBytes maxLen 0x2#4 len = if 32 ≤ len.toNat ∧ len.toNat ≤ maxLen then len.toNat else 0) ∧
    (decodeHeader (headerOf 0x3#4 len) = .setCiphertext len ∧
      payloadBytes maxLen 0x3#4 len = if 32 ≤ len.toNat ∧ len.toNat ≤ maxLen then len.toNat else 0) ∧
    (∀ mm : BitVec 2, decodeHeader (headerOf (0b01#2 ++ mm) len) = .updOther mm len ∧
      payloadBytes maxLen (0b01#2 ++ mm) len = 0) ∧
    (decodeHeader (headerOf 0x8#4 len) = .encrypt len ∧ payloadBytes maxLen 0x8#4 len = 0) ∧
    (decodeHeader (headerOf 0x9#4 len) = .decrypt len ∧ payloadBytes maxLen 0x9#4 len = 0) ∧
    (∀ sel : BitVec 1, decodeHeader (headerOf (0b101#3 ++ sel) len) = .runRsvdLow sel len ∧
      payloadBytes maxLen (0b101#3 ++ sel) len = 0) ∧
    (∀ sel : BitVec 2, decodeHeader (headerOf (0b11#2 ++ sel) len) = .runRsvdHigh sel len ∧
      payloadBytes maxLen (0b11#2 ++ sel) len = 0)

/-- R101: every line stands for a well-formed packet, and its header for the command the line names. -/
def Obligations.LinesStandForWellFormedPackets : Prop :=
  ∀ (maxLen : Nat) (l : Line), l.wellFormed = true →
    (l.packet maxLen).wellFormed maxLen = true ∧
    decodeHeader (l.packet maxLen).header =
      match l with
      | .setIv _ => .setIv 0#32
      | .setKey _ => .setKey 0#32
      | .setPlaintext bytes => .setPlaintext (BitVec.ofNat 32 bytes.length)
      | .setCiphertext bytes => .setCiphertext (BitVec.ofNat 32 bytes.length)
      | .updOther m => .updOther (BitVec.ofNat 2 (m - 4)) 0#32
      | .encrypt => .encrypt 0#32
      | .decrypt => .decrypt 0#32
      | .runRsvd m => if m < 12 then .runRsvdLow (BitVec.ofNat 1 (m - 10)) 0#32
          else .runRsvdHigh (BitVec.ofNat 2 (m - 12)) 0#32

/-! ### Steps -/

/-- A step runs the decoded instruction: in IDLE at the command level the first header on the command port,
taken off the port; in every other case the micro-step of PHASE (R103 item 1, R212, R30; the two levels are
log entry 6). -/
def Obligations.StepRunsTheDecodedInstruction : Prop :=
  (∀ (s : State) (h : Header) (rest : List Header) (i : Instr),
    s.resetIn = false → s.phase = 0#5 → s.level = .command → s.cmdPort = h :: rest →
    decode (.header h) = .ok i →
    step s = exec i { s with cmdPort := rest }) ∧
  (∀ (s : State) (i : Instr),
    s.resetIn = false → (s.phase ≠ 0#5 ∨ s.level = .microstep ∨ s.cmdPort = []) →
    decode (.phase s.phase) = .ok i →
    step s = exec i s)

/-- PHASE codes 22 to 31 name no micro-step (R99) and are refused by name (log entry 12). -/
def Obligations.UnusedPhaseCodesAreRefused : Prop :=
  ∀ s : State, s.resetIn = false → 22 ≤ s.phase.toNat → step s = .refused (.unusedPhase s.phase)

/-- A word of the opcode table placed by `withFetchWord` is what the very next step runs, and nothing else but the
selection of it (PHASE, the level, the reset input, the payload) differs from the state it was placed in (log
entries 7, 13). -/
def Obligations.PlacedWordsAreWhatTheNextStepRuns : Prop :=
  ∀ (s : State) (nbits w : Nat) (i : Instr), decodeTableWord nbits w = some i →
    ∃ u, step (s.withFetchWord nbits w) = exec i u ∧
      u = { s with phase := u.phase, level := u.level, resetIn := false, payPort := u.payPort }

/-! ### Reset -/

/-- The reset state (R38): `State.reset`, and the same for an engine of any MAX_LEN. "No value" of a register is
its `held` bit; a buffer byte holds no value where `lookup` finds none. -/
def Obligations.ResetStateIsAsListed : Prop :=
  ∀ r : State, (r = State.reset ∨ ∃ n : Nat, r = State.resetWith n) →
    r.keyLen = 0#32 ∧ r.ivLen = 0#32 ∧ r.ptLen = 0#32 ∧ r.ctLen = 0#32 ∧
    r.ptExt = 0#32 ∧ r.ctExt = 0#32 ∧ (∀ a, r.pt.lookup a = none) ∧ (∀ a, r.ct.lookup a = none) ∧
    r.key.held = false ∧ r.iv.held = false ∧ r.keyround.held = false ∧
    r.matrix.held = false ∧ r.blk.held = false ∧ r.fed.held = false ∧ r.out.held = false ∧
    r.blkcnt.held = false ∧ r.nmemb.held = false ∧ r.total.held = false ∧ r.outlen.held = false ∧
    r.padcnt.held = false ∧ r.op.held = false ∧ r.lenop.held = false ∧
    r.phase = 0#5 ∧ r.statusWord = 0#32 ∧ r.result = 0#32

/-- Reset from any state (R251): every length and both extents 0, PHASE IDLE, STATUS and RESULT 0, every other
register and every buffer byte holds no value, no response is given; and reset is the only event that takes
KEY_LEN or IV_LEN from 32 back. -/
def Obligations.ResetClearsEverythingAndAloneUnsetsKeyAndIv : Prop :=
  (∀ s : State, s.resetIn = true → ∃ t, step s = .next t ∧
    t.keyLen = 0#32 ∧ t.ivLen = 0#32 ∧ t.ptLen = 0#32 ∧ t.ctLen = 0#32 ∧
    t.ptExt = 0#32 ∧ t.ctExt = 0#32 ∧ (∀ a, t.pt.lookup a = none) ∧ (∀ a, t.ct.lookup a = none) ∧
    t.key.held = false ∧ t.iv.held = false ∧ t.keyround.held = false ∧
    t.matrix.held = false ∧ t.blk.held = false ∧ t.fed.held = false ∧ t.out.held = false ∧
    t.blkcnt.held = false ∧ t.nmemb.held = false ∧ t.total.held = false ∧ t.outlen.held = false ∧
    t.padcnt.held = false ∧ t.op.held = false ∧ t.lenop.held = false ∧
    t.phase = 0#5 ∧ t.statusWord = 0#32 ∧ t.result = 0#32 ∧ t.respPort = s.respPort) ∧
  (∀ s t : State, s.resetIn = false → step s = .next t →
    (s.keyLen = 32#32 → t.keyLen = 32#32) ∧ (s.ivLen = 32#32 → t.ivLen = 32#32))

/-! ### The invariant -/

/-- The reset state meets the invariant, for every MAX_LEN that R9 allows. -/
def Obligations.ResetMeetsTheInvariant : Prop :=
  State.reset.Inv ∧ ∀ n : Nat, 32 ≤ n → n ≤ 2 ^ 31 → (State.resetWith n).Inv

/-- Every step from a state that meets the invariant gives a state that meets it (R36, extended to every
phase): lengths and extents, canonical memories, the counters of a run, cells in −128 to 127, the held
registers of each phase, no unused PHASE code. -/
def Obligations.EveryStepKeepsTheInvariant : Prop :=
  ∀ s t : State, s.Inv → step s = .next t → t.Inv

/-- Under the invariant every step goes on: no fault, no refusal (R63, R99, R211, R271). -/
def Obligations.NoStepStopsUnderTheInvariant : Prop :=
  ∀ s : State, s.Inv → ∃ t, step s = .next t

/-- R37: no step of a run reads a location that holds no value. Registers: two states that meet the invariant and
differ only in the bits of registers that hold no value step to two states that again differ only in such bits.
Buffers: the bytes that the copy-ins put into BLK and the strip into PADCNT are bytes that PT or CT holds. The last
clause names, phase by phase, the locations that a micro-step reads (`State.readsHeld`). -/
def Obligations.StepsDependOnlyOnLocationsThatHoldAValue : Prop :=
  (∀ s s' : State, s.Inv → s'.Inv → s.SameValues s' →
    ∃ t t', step s = .next t ∧ step s' = .next t' ∧ t.SameValues t') ∧
  (∀ s : State, s.Inv → s.resetIn = false →
    (s.phase = 5#5 → ∃ t, step s = .next t ∧ t.blk.held = true ∧
      ∀ j : Fin 32, s.pt.lookup (32 * s.blkcnt.bits.toNat + j.val) = some t.blk.bits[j]) ∧
    (s.phase = 12#5 → ∃ t, step s = .next t ∧ t.blk.held = true ∧
      ∀ j : Fin 32, s.ct.lookup (32 * s.blkcnt.bits.toNat + j.val) = some t.blk.bits[j]) ∧
    (s.phase = 20#5 → ∃ t, step s = .next t ∧ t.padcnt.held = true ∧
      s.pt.lookup (s.total.bits.toNat - 1) = some t.padcnt.bits)) ∧
  (∀ s : State, s.Inv → s.readsHeld)

/-- R36 items 1 to 4 in every IDLE state that meets the invariant; item 5 in every state: a host read of
anything but STATUS that is answered is made in IDLE. -/
def Obligations.IdleStatesMeetTheListedInvariants : Prop :=
  (∀ s : State, s.Inv → s.phase = 0#5 →
    (s.keyLen = 0#32 ∨ s.keyLen = 32#32) ∧ (s.ivLen = 0#32 ∨ s.ivLen = 32#32) ∧
    (s.keyLen = 32#32 → s.key.held = true) ∧ (s.ivLen = 32#32 → s.iv.held = true) ∧
    (s.ctLen = 0#32 ∨ (32 ≤ s.ctLen.toNat ∧ s.ctLen.toNat ≤ s.maxLen)) ∧
    s.ctLen.toNat ≤ s.ctExt.toNat ∧ s.ctExt.toNat ≤ s.maxLen ∧
    s.ptExt.toNat ≤ s.maxLen ∧ (s.ptLen.toNat ≤ s.maxLen → s.ptLen.toNat ≤ s.ptExt.toNat) ∧
    (s.maxLen < s.ptLen.toNat → 2 ^ 32 - 223 ≤ s.ptLen.toNat)) ∧
  (∀ (s : State) (space : BitVec 2) (index v : Len),
    ¬(space = 0#2 ∧ index = 0#32) → s.hostRead space index = .ok v → s.phase = 0#5)

/-! ### Rules of the whole machine -/

/-- KEY and KEY_LEN are written only by SET_KEY, IV and IV_LEN only by SET_IV (R21, R22), as commands or by the
micro-step UPD with that mode. -/
def Obligations.OnlySetKeyAndSetIvWriteKeyAndIv : Prop :=
  ∀ (i : Instr) (s t : State), exec i s = .next t →
    ((∀ len, i ≠ .setKey len) → ¬(i = .upd ∧ s.op.bits.extractLsb' 0 3 = 1#3) →
      t.key = s.key ∧ t.keyLen = s.keyLen) ∧
    ((∀ len, i ≠ .setIv len) → ¬(i = .upd ∧ s.op.bits.extractLsb' 0 3 = 0#3) →
      t.iv = s.iv ∧ t.ivLen = s.ivLen)

/-- No instruction writes MAX_LEN (a parameter, R35), the level or the reset input (log entries 1, 6, 10). -/
def Obligations.NoInstructionWritesParametersOrTheResetInput : Prop :=
  ∀ (i : Instr) (s t : State), exec i s = .next t →
    t.maxLen = s.maxLen ∧ t.level = s.level ∧ t.resetIn = s.resetIn

/-- R103 item 1: a header presented while the engine is busy is not accepted and not lost: it waits. -/
def Obligations.BusyEngineLeavesTheCommandPortAlone : Prop :=
  ∀ s t : State, s.resetIn = false → s.phase ≠ 0#5 → step s = .next t → t.cmdPort = s.cmdPort

/-- R98, R230, R32: STATUS.OK, ERR, PADUF and RESULT change only at a completion, which returns to IDLE and
gives exactly one response, equal to the new STATUS.OK and RESULT. -/
def Obligations.StatusAndResultChangeOnlyAtACompletion : Prop :=
  ∀ (i : Instr) (s t : State), exec i s = .next t →
    (t.respPort = s.respPort ∧ t.status = s.status ∧ t.result = s.result) ∨
    (t.phase = 0#5 ∧ t.respPort = s.respPort ++ [⟨t.status.ok, t.result⟩])

/-- R32, R221: the bits of the STATUS word. -/
def Obligations.StatusWordHasItsFieldsInPlace : Prop :=
  ∀ s : State,
    (s.statusWord.getLsbD 0 = true ↔ s.phase ≠ 0#5) ∧
    s.statusWord.getLsbD 1 = s.status.ok ∧
    s.statusWord.extractLsb' 2 3 =
      (match s.status.err with
       | .none => 0#3 | .precond => 1#3 | .short => 2#3 | .verify => 3#3
       | .badmode => 4#3 | .badcmd => 5#3 | .capacity => 6#3) ∧
    s.statusWord.getLsbD 5 = s.status.paduf ∧
    s.statusWord.extractLsb' 6 26 = 0#26

/-! ### Host reads -/

/-- R66: STATUS at any time; every other read only in IDLE; no index beyond its space; no location without a
value; otherwise the stored value, a byte zero-extended (R34 numbers the CSRs). -/
def Obligations.HostReadsFollowTheReadRules : Prop :=
  ∀ s : State,
    (∀ index : Len, s.hostRead 0#2 0#32 = .ok s.statusWord ∧
      (s.phase ≠ 0#5 → ∀ space : BitVec 2, ¬(space = 0#2 ∧ index = 0#32) →
        s.hostRead space index = .error .busy)) ∧
    (s.phase = 0#5 →
      s.hostRead 0#2 1#32 = .ok s.result ∧ s.hostRead 0#2 2#32 = .ok s.ivLen ∧
      s.hostRead 0#2 3#32 = .ok s.keyLen ∧ s.hostRead 0#2 4#32 = .ok s.ptLen ∧
      s.hostRead 0#2 5#32 = .ok s.ctLen ∧
      (∀ index : Len, 6 ≤ index.toNat → s.hostRead 0#2 index = .error .noSuchIndex) ∧
      (∀ index : Len,
        (s.maxLen ≤ index.toNat →
          s.hostRead 1#2 index = .error .noSuchIndex ∧ s.hostRead 2#2 index = .error .noSuchIndex) ∧
        (index.toNat < s.maxLen → s.ptExt.toNat ≤ index.toNat → s.hostRead 1#2 index = .error .noValue) ∧
        (index.toNat < s.maxLen → s.ctExt.toNat ≤ index.toNat → s.hostRead 2#2 index = .error .noValue) ∧
        (∀ b, index.toNat < s.maxLen → index.toNat < s.ptExt.toNat → s.pt.lookup index.toNat = some b →
          s.hostRead 1#2 index = .ok (b.setWidth 32)) ∧
        (∀ b, index.toNat < s.maxLen → index.toNat < s.ctExt.toNat → s.ct.lookup index.toNat = some b →
          s.hostRead 2#2 index = .ok (b.setWidth 32)) ∧
        (32 ≤ index.toNat → s.hostRead 3#2 index = .error .noSuchIndex) ∧
        (∀ h : index.toNat < 32,
          (s.keyround.held = false → s.hostRead 3#2 index = .error .noValue) ∧
          (s.keyround.held = true →
            s.hostRead 3#2 index = .ok ((s.keyround.bits[index.toNat]).setWidth 32)))))

/-! ### Updates -/

/-- SET_IV and SET_KEY (R121, R122): with the 32 payload bytes on the payload port, and a storage that leaves them as
they are (sound, or a storage fault that happens to leave the payload, which is then used up; log entry 11), the
register takes the payload, its length becomes 32, RESULT 1, and nothing else changes. -/
def Obligations.SetIvAndSetKeyStoreThePayload : Prop :=
  ∀ (len : Len) (s : State) (b : Block) (rest : List Byte),
    s.payPort = b.toList ++ rest → (s.storageFault = none ∨ s.storageFault = some b) →
    exec (.setIv len) s = .next { s with
      iv := ⟨b, true⟩, ivLen := 32#32, payPort := rest, storageFault := none,
      op := ⟨0x0#4, true⟩, lenop := ⟨len, true⟩, phase := 0#5,
      status := ⟨true, .none, false⟩, result := 1#32, respPort := s.respPort ++ [⟨true, 1#32⟩] } ∧
    exec (.setKey len) s = .next { s with
      key := ⟨b, true⟩, keyLen := 32#32, payPort := rest, storageFault := none,
      op := ⟨0x1#4, true⟩, lenop := ⟨len, true⟩, phase := 0#5,
      status := ⟨true, .none, false⟩, result := 1#32, respPort := s.respPort ++ [⟨true, 1#32⟩] }

/-- The VERIFY arms of R121, R122 (R224): if storage leaves other bytes than the payload, the command fails
with VERIFY and the length register is unchanged; the 32 bytes are whatever storage left (93 U3; the input
`storageFault` is log entry 11). -/
def Obligations.SetIvAndSetKeyReportACorruptedCopy : Prop :=
  ∀ (len : Len) (s : State) (b c : Block) (rest : List Byte),
    s.payPort = b.toList ++ rest → s.storageFault = some c → c ≠ b →
    exec (.setIv len) s = .next { s with
      iv := ⟨c, true⟩, payPort := rest, storageFault := none, op := ⟨0x0#4, true⟩, lenop := ⟨len, true⟩,
      phase := 0#5,
      status := ⟨false, .verify, false⟩, result := 0#32, respPort := s.respPort ++ [⟨false, 0#32⟩] } ∧
    exec (.setKey len) s = .next { s with
      key := ⟨c, true⟩, payPort := rest, storageFault := none, op := ⟨0x1#4, true⟩, lenop := ⟨len, true⟩,
      phase := 0#5,
      status := ⟨false, .verify, false⟩, result := 0#32, respPort := s.respPort ++ [⟨false, 0#32⟩] }

/-- R103 item 2: with fewer payload bytes than R93 asks for the engine stays in UPD (log entry 8). R251: a reset
abandons such an update without a response, and the bytes delivered for it are gone, so that no later update takes
them (log entry 10). -/
def Obligations.UpdatesWaitForTheirPayload : Prop :=
  ∀ (len : Len) (s : State),
    (s.payPort.length < 32 →
      exec (.setIv len) s = .next { s with op := ⟨0x0#4, true⟩, lenop := ⟨len, true⟩, phase := 1#5 } ∧
      exec (.setKey len) s = .next { s with op := ⟨0x1#4, true⟩, lenop := ⟨len, true⟩, phase := 1#5 }) ∧
    (32 ≤ len.toNat → len.toNat ≤ s.maxLen → s.payPort.length < len.toNat →
      exec (.setPlaintext len) s = .next { s with op := ⟨0x2#4, true⟩, lenop := ⟨len, true⟩, phase := 1#5 } ∧
      exec (.setCiphertext len) s = .next { s with op := ⟨0x3#4, true⟩, lenop := ⟨len, true⟩, phase := 1#5 }) ∧
    (s.phase = 1#5 → s.payPort.length ≤ payloadBytes s.maxLen s.op.bits s.lenop.bits →
      ∃ t, step { s with resetIn := true } = .next t ∧
        t.payPort = [] ∧ t.respPort = s.respPort ∧ t.cmdPort = s.cmdPort)

/-- SET_PLAINTEXT (R123, R126): PT becomes exactly the payload, bytes beyond it hold no value, PT_EXT and
PT_LEN become `len`, and nothing else changes. -/
def Obligations.SetPlaintextStoresTheText : Prop :=
  ∀ (len : Len) (s : State) (bs rest : List Byte),
    32 ≤ len.toNat → len.toNat ≤ s.maxLen → bs.length = len.toNat → s.payPort = bs ++ rest →
    ∃ t, exec (.setPlaintext len) s = .next t ∧
      t = { s with
        pt := t.pt, ptExt := len, ptLen := len, payPort := rest, op := ⟨0x2#4, true⟩, lenop := ⟨len, true⟩,
        phase := 0#5,
        status := ⟨true, .none, false⟩, result := 1#32, respPort := s.respPort ++ [⟨true, 1#32⟩] } ∧
      (∀ a, t.pt.lookup a = bs[a]?) ∧ t.pt.wf

/-- SET_CIPHERTEXT (R124, R126, R77): as SET_PLAINTEXT, with CT; the byte at index `len` is not written. -/
def Obligations.SetCiphertextStoresTheText : Prop :=
  ∀ (len : Len) (s : State) (bs rest : List Byte),
    32 ≤ len.toNat → len.toNat ≤ s.maxLen → bs.length = len.toNat → s.payPort = bs ++ rest →
    ∃ t, exec (.setCiphertext len) s = .next t ∧
      t = { s with
        ct := t.ct, ctExt := len, ctLen := len, payPort := rest, op := ⟨0x3#4, true⟩, lenop := ⟨len, true⟩,
        phase := 0#5,
        status := ⟨true, .none, false⟩, result := 1#32, respPort := s.respPort ++ [⟨true, 1#32⟩] } ∧
      (∀ a, t.ct.lookup a = bs[a]?) ∧ t.ct.wf

/-- R127, R223, R227: a text update below 32 bytes fails SHORT, one above MAX_LEN fails CAPACITY; no payload is
taken and nothing but STATUS and RESULT changes. -/
def Obligations.TextUpdatesRejectBadLengths : Prop :=
  ∀ (len : Len) (s : State) (c : Cause),
    (len.toNat < 32 ∧ c = .short) ∨ (32 ≤ len.toNat ∧ s.maxLen < len.toNat ∧ c = .capacity) →
    exec (.setPlaintext len) s = .next { s with
      op := ⟨0x2#4, true⟩, lenop := ⟨len, true⟩, phase := 0#5,
      status := ⟨false, c, false⟩, result := 0#32, respPort := s.respPort ++ [⟨false, 0#32⟩] } ∧
    exec (.setCiphertext len) s = .next { s with
      op := ⟨0x3#4, true⟩, lenop := ⟨len, true⟩, phase := 0#5,
      status := ⟨false, c, false⟩, result := 0#32, respPort := s.respPort ++ [⟨false, 0#32⟩] }

/-- UPD_OTHER (R95, R125, R230): BADMODE, RESULT 0, and no other state changes but OP and LENOP, which the command
level latches as it accepts the packet (R90; log entry 9). -/
def Obligations.UpdOtherFailsBadMode : Prop :=
  ∀ (mm : BitVec 2) (len : Len) (s : State),
    exec (.updOther mm len) s = .next { s with
      op := ⟨0b01#2 ++ mm, true⟩, lenop := ⟨len, true⟩, phase := 0#5,
      status := ⟨false, .badmode, false⟩, result := 0#32, respPort := s.respPort ++ [⟨false, 0#32⟩] }

/-- RUN_RSVD (R96, R226, R230): BADCMD, RESULT = SENTINEL, and no other state changes but OP and LENOP, which the
command level latches as it accepts the packet (R90; log entry 9). -/
def Obligations.RunRsvdFailsBadCmd : Prop :=
  ∀ (len : Len) (s : State),
    (∀ sel : BitVec 1, exec (.runRsvdLow sel len) s = .next { s with
      op := ⟨0b101#3 ++ sel, true⟩, lenop := ⟨len, true⟩, phase := 0#5,
      status := ⟨false, .badcmd, false⟩, result := 0xFFFFFFFF#32,
      respPort := s.respPort ++ [⟨false, 0xFFFFFFFF#32⟩] }) ∧
    (∀ sel : BitVec 2, exec (.runRsvdHigh sel len) s = .next { s with
      op := ⟨0b11#2 ++ sel, true⟩, lenop := ⟨len, true⟩, phase := 0#5,
      status := ⟨false, .badcmd, false⟩, result := 0xFFFFFFFF#32,
      respPort := s.respPort ++ [⟨false, 0xFFFFFFFF#32⟩] })

/-- Micro-step UPD (R120): it always answers a next state; where OP and LENOP have latched an update command, it is
the one the whole command gives, selected by `OP[2:0]`. -/
def Obligations.UpdMicroStepRunsTheLatchedCommand : Prop :=
  (∀ s : State, ∃ t, exec .upd s = .next t) ∧
  (∀ s : State, s.phase = 1#5 → s.op.held = true → s.lenop.held = true → s.op.bits.getLsbD 3 = false →
    exec .upd s = exec (decodeOp s.op.bits s.lenop.bits) s)

/-- Micro-step UPD (R120) with an update command latched (class bit 0): mode 0 is SET_IV (R121), 1 SET_KEY
(R122), 2 SET_PLAINTEXT (R123), 3 SET_CIPHERTEXT (R124), 4 to 7 the failure BADMODE (R125). Here the payload has
arrived, the storage is sound and a text's length passes its tests; the mode alone selects. -/
def Obligations.UpdMicroStepPerformsTheUpdate : Prop :=
  ∀ (s : State) (mode : Nat), mode = (s.op.bits.extractLsb' 0 3).toNat → s.op.bits.getLsbD 3 = false →
    (∀ (b : Block) (rest : List Byte), s.payPort = b.toList ++ rest → s.storageFault = none →
      (mode = 0 → exec .upd s = .next { s with
        iv := ⟨b, true⟩, ivLen := 32#32, payPort := rest, phase := 0#5,
        status := ⟨true, .none, false⟩, result := 1#32, respPort := s.respPort ++ [⟨true, 1#32⟩] }) ∧
      (mode = 1 → exec .upd s = .next { s with
        key := ⟨b, true⟩, keyLen := 32#32, payPort := rest, phase := 0#5,
        status := ⟨true, .none, false⟩, result := 1#32, respPort := s.respPort ++ [⟨true, 1#32⟩] })) ∧
    (∀ bs rest : List Byte, 32 ≤ s.lenop.bits.toNat → s.lenop.bits.toNat ≤ s.maxLen →
      bs.length = s.lenop.bits.toNat → s.payPort = bs ++ rest →
      (mode = 2 → ∃ t, exec .upd s = .next t ∧
        t = { s with
          pt := t.pt, ptExt := s.lenop.bits, ptLen := s.lenop.bits, payPort := rest, phase := 0#5,
          status := ⟨true, .none, false⟩, result := 1#32, respPort := s.respPort ++ [⟨true, 1#32⟩] } ∧
        ∀ a, t.pt.lookup a = bs[a]?) ∧
      (mode = 3 → ∃ t, exec .upd s = .next t ∧
        t = { s with
          ct := t.ct, ctExt := s.lenop.bits, ctLen := s.lenop.bits, payPort := rest, phase := 0#5,
          status := ⟨true, .none, false⟩, result := 1#32, respPort := s.respPort ++ [⟨true, 1#32⟩] } ∧
        ∀ a, t.ct.lookup a = bs[a]?)) ∧
    (4 ≤ mode → exec .upd s = .next { s with
      phase := 0#5, status := ⟨false, .badmode, false⟩, result := 0#32,
      respPort := s.respPort ++ [⟨false, 0#32⟩] })

/-- R93: a well-formed packet, first on the ports of an IDLE engine that meets the invariant, is taken whole
and no byte more, and its command completes in one step of the command level. -/
def Obligations.WellFormedPacketsAreTakenWholeAndComplete : Prop :=
  ∀ (s : State) (p : Packet) (headers : List Header) (bytes : List Byte),
    s.Inv → s.resetIn = false → s.phase = 0#5 → s.level = .command → p.wellFormed s.maxLen = true →
    s.cmdPort = p.header :: headers → s.payPort = p.payload ++ bytes →
    ∃ t, step s = .next t ∧ t.cmdPort = headers ∧ t.payPort = bytes ∧ t.phase = 0#5 ∧
      t.respPort = s.respPort ++ [⟨t.status.ok, t.result⟩]

/-! ### Micro-steps of the control -/

/-- IDLE (R212): accept the packet that is presented; with none, stay and change nothing. -/
def Obligations.IdleAcceptsThePresentedPacket : Prop :=
  ∀ s : State,
    (s.cmdPort = [] → exec .idle s = .next s) ∧
    (∀ (h : Header) (rest : List Header), s.cmdPort = h :: rest →
      exec .idle s = .next { s with
        cmdPort := rest, op := ⟨h.extractLsb' 32 4, true⟩, lenop := ⟨h.extractLsb' 0 32, true⟩,
        phase := if h.getLsbD 35 then 2#5 else 1#5 })

/-- R_CHECK (R185, R229): BADCMD, then PRECOND, then CAPACITY, each returning to IDLE with nothing but STATUS
and RESULT written; else R_INIT. OP holds a run code, as R212 has it in this phase. `L` is PT_LEN when OP = 0x8 and
CT_LEN when OP = 0x9; the other run codes do not get past the first test. -/
def Obligations.RCheckTestsInOrder : Prop :=
  ∀ (s : State) (l : Len), s.op.bits.getLsbD 3 = true → (s.op.bits = 0x8#4 → l = s.ptLen) →
    (s.op.bits = 0x9#4 → l = s.ctLen) →
    exec .rCheck s = .next (
      if 2 ≤ (s.op.bits.extractLsb' 0 3).toNat then
        { s with phase := 0#5, status := ⟨false, .badcmd, false⟩, result := 0xFFFFFFFF#32,
                 respPort := s.respPort ++ [⟨false, 0xFFFFFFFF#32⟩] }
      else if s.ivLen = 0#32 ∨ s.keyLen = 0#32 ∨ l = 0#32 then
        { s with phase := 0#5, status := ⟨false, .precond, false⟩, result := 0xFFFFFFFF#32,
                 respPort := s.respPort ++ [⟨false, 0xFFFFFFFF#32⟩] }
      else if s.maxLen < l.toNat then
        { s with phase := 0#5, status := ⟨false, .capacity, false⟩, result := 0xFFFFFFFF#32,
                 respPort := s.respPort ++ [⟨false, 0xFFFFFFFF#32⟩] }
      else { s with phase := 3#5 })

/-- R_INIT (R186, R142, R170, R183, R184): KEYROUND = KEY xor IV lane by lane, every cell 0, the counts, the
output buffer emptied, for the two codes that get past R_CHECK. -/
def Obligations.RInitPreparesTheRun : Prop :=
  ∀ s : State,
    (s.op.bits = 0x8#4 → ∃ t, exec .rInit s = .next t ∧
      t = { s with
        keyround := ⟨t.keyround.bits, true⟩, matrix := ⟨t.matrix.bits, true⟩,
        nmemb := ⟨BitVec.ofNat 32 (s.ptLen.toNat / 32), true⟩,
        total := ⟨BitVec.ofNat 32 (s.ptLen.toNat / 32 * 32), true⟩,
        blkcnt := ⟨0#32, true⟩, outlen := ⟨0#32, true⟩, ct := [], ctExt := 0#32, phase := 4#5 } ∧
      (∀ j : Fin 32, t.keyround.bits[j] = s.key.bits[j] ^^^ s.iv.bits[j]) ∧
      (∀ (r : Fin 4) (c : Fin 8), t.matrix.bits[r][c] = 0#32)) ∧
    (s.op.bits = 0x9#4 → ∃ t, exec .rInit s = .next t ∧
      t = { s with
        keyround := ⟨t.keyround.bits, true⟩, matrix := ⟨t.matrix.bits, true⟩,
        nmemb := ⟨BitVec.ofNat 32 (s.ctLen.toNat / 32), true⟩,
        total := ⟨BitVec.ofNat 32 (s.ctLen.toNat / 32 * 32), true⟩,
        blkcnt := ⟨0#32, true⟩, outlen := ⟨0#32, true⟩, pt := [], ptExt := 0#32, phase := 4#5 } ∧
      (∀ j : Fin 32, t.keyround.bits[j] = s.key.bits[j] ^^^ s.iv.bits[j]) ∧
      (∀ (r : Fin 4) (c : Fin 8), t.matrix.bits[r][c] = 0#32))

/-- R_TEST (R187): the unsigned loop test, with the `else` of R187 for every code but 0x8. -/
def Obligations.RTestBranchesOnTheBlockCount : Prop :=
  ∀ s : State,
    (s.op.bits = 0x8#4 → exec .rTest s = .next { s with
      phase := if s.blkcnt.bits.toNat < s.nmemb.bits.toNat then 5#5 else 21#5 }) ∧
    (s.op.bits ≠ 0x8#4 → exec .rTest s = .next { s with
      phase := if s.blkcnt.bits.toNat < s.nmemb.bits.toNat then 12#5 else 20#5 })

/-- R_NEXT (R203). -/
def Obligations.RNextAdvancesTheCounters : Prop :=
  ∀ s : State, exec .rNext s = .next { s with
    outlen := ⟨BitVec.ofNat 32 (s.outlen.bits.toNat + 32), true⟩,
    blkcnt := ⟨BitVec.ofNat 32 (s.blkcnt.bits.toNat + 1), true⟩, phase := 4#5 }

/-- R_DONE (R205, R230): the output length written back, RESULT and STATUS, PADUF only for a DECRYPT whose
PADCNT exceeds TOTAL. -/
def Obligations.RDoneWritesBackTheLength : Prop :=
  ∀ s : State,
    (s.op.bits = 0x8#4 → exec .rDone s = .next { s with
      ctLen := s.outlen.bits, phase := 0#5, status := ⟨true, .none, false⟩, result := s.outlen.bits,
      respPort := s.respPort ++ [⟨true, s.outlen.bits⟩] }) ∧
    (s.op.bits ≠ 0x8#4 → exec .rDone s = .next { s with
      ptLen := s.outlen.bits, phase := 0#5,
      status := ⟨true, .none, decide (s.op.bits = 0x9#4 ∧ s.total.bits.toNat < s.padcnt.bits.toNat)⟩,
      result := s.outlen.bits,
      respPort := s.respPort ++ [⟨true, s.outlen.bits⟩] })

/-! ### Micro-steps of the data path -/

/-- E_COPYIN and D_COPYIN (R188, R196): BLK takes the 32 bytes at `32 × BLKCNT` of PT or CT, each of which holds
a value; nothing else changes. -/
def Obligations.CopyInReadsTheBlock : Prop :=
  ∀ (s : State) (at32 : Nat), at32 = 32 * s.blkcnt.bits.toNat → at32 + 32 ≤ s.maxLen → s.maxLen ≤ 2 ^ 31 →
    (∀ b : Block, (∀ j : Fin 32, s.pt.lookup (at32 + j.val) = some b[j]) →
      exec .eCopyin s = .next { s with blk := ⟨b, true⟩, phase := 6#5 }) ∧
    (∀ b : Block, (∀ j : Fin 32, s.ct.lookup (at32 + j.val) = some b[j]) →
      exec .dCopyin s = .next { s with blk := ⟨b, true⟩, phase := 13#5 })

/-- E_COPYOUT and D_COPYOUT (R194, R201): the 32 bytes at `32 × BLKCNT` of CT or PT become OUT, every other byte
stays, the extent becomes `32 × BLKCNT + 32`; nothing else changes. -/
def Obligations.CopyOutWritesTheBlock : Prop :=
  ∀ (s : State) (at32 : Nat), at32 = 32 * s.blkcnt.bits.toNat → at32 + 32 ≤ s.maxLen → s.maxLen ≤ 2 ^ 31 →
    (∃ t, exec .eCopyout s = .next t ∧
      t = { s with ct := t.ct, ctExt := BitVec.ofNat 32 (at32 + 32), phase := 19#5 } ∧
      (∀ j : Fin 32, t.ct.lookup (at32 + j.val) = some s.out.bits[j]) ∧
      (∀ a, a < at32 ∨ at32 + 32 ≤ a → t.ct.lookup a = s.ct.lookup a)) ∧
    (∃ t, exec .dCopyout s = .next t ∧
      t = { s with pt := t.pt, ptExt := BitVec.ofNat 32 (at32 + 32), phase := 18#5 } ∧
      (∀ j : Fin 32, t.pt.lookup (at32 + j.val) = some s.out.bits[j]) ∧
      (∀ a, a < at32 ∨ at32 + 32 ≤ a → t.pt.lookup a = s.pt.lookup a))

/-- The four copies and the strip fault exactly where they would touch an index that a buffer of MAX_LEN bytes
does not have (R24, R25; log entry 5). -/
def Obligations.AccessesOutsideTheBuffersFault : Prop :=
  ∀ (s : State) (at32 last : Nat),
    at32 = 32 * s.blkcnt.bits.toNat % 2 ^ 32 → last = (s.total.bits.toNat + 2 ^ 32 - 1) % 2 ^ 32 →
    (s.maxLen < at32 + 32 →
      exec .eCopyin s = .fault (.outsideBuffer .pt at32) ∧
      exec .eCopyout s = .fault (.outsideBuffer .ct at32) ∧
      exec .dCopyin s = .fault (.outsideBuffer .ct at32) ∧
      exec .dCopyout s = .fault (.outsideBuffer .pt at32)) ∧
    (at32 + 32 ≤ s.maxLen →
      (∃ t, exec .eCopyin s = .next t) ∧ (∃ t, exec .eCopyout s = .next t) ∧
      (∃ t, exec .dCopyin s = .next t) ∧ (∃ t, exec .dCopyout s = .next t)) ∧
    (s.maxLen ≤ last → exec .dStrip s = .fault (.outsideBuffer .pt last)) ∧
    (last < s.maxLen → ∃ t, exec .dStrip s = .next t)

/-- E_XOR (R189) and D_XOR (R200): lane by lane with KEYROUND (R141). -/
def Obligations.XorStepsCombineWithKeyround : Prop :=
  ∀ s : State,
    (∃ t, exec .eXor s = .next t ∧ t = { s with fed := ⟨t.fed.bits, true⟩, phase := 7#5 } ∧
      ∀ j : Fin 32, t.fed.bits[j] = s.blk.bits[j] ^^^ s.keyround.bits[j]) ∧
    (∃ t, exec .dXor s = .next t ∧ t = { s with out := ⟨t.out.bits, true⟩, phase := 17#5 } ∧
      ∀ j : Fin 32, t.out.bits[j] = s.fed.bits[j] ^^^ s.keyround.bits[j])

/-- E_CHAIN (R190, R143): KEYROUND <- FED. D_CHAIN (R202, R144): KEYROUND <- KEYROUND xor FED. -/
def Obligations.ChainStepsAdvanceKeyround : Prop :=
  ∀ s : State,
    exec .eChain s = .next { s with keyround := ⟨s.fed.bits, true⟩, phase := 8#5 } ∧
    (∃ t, exec .dChain s = .next t ∧ t = { s with keyround := ⟨t.keyround.bits, true⟩, phase := 19#5 } ∧
      ∀ j : Fin 32, t.keyround.bits[j] = s.keyround.bits[j] ^^^ s.fed.bits[j])

/-- E_LOAD (R191) and D_LOAD (R197): `MATRIX[r][c]` is byte `c + 8*r` sign-extended to 32 bits (R161). -/
def Obligations.LoadStepsFillTheMatrix : Prop :=
  ∀ s : State,
    (∃ t, exec .eLoad s = .next t ∧ t = { s with matrix := ⟨t.matrix.bits, true⟩, phase := 9#5 } ∧
      ∀ (r : Fin 4) (c : Fin 8),
        (t.matrix.bits[r][c]).toInt = (s.fed.bits[c.val + 8 * r.val]'(by omega)).toInt) ∧
    (∃ t, exec .dLoad s = .next t ∧ t = { s with matrix := ⟨t.matrix.bits, true⟩, phase := 14#5 } ∧
      ∀ (r : Fin 4) (c : Fin 8),
        (t.matrix.bits[r][c]).toInt = (s.blk.bits[c.val + 8 * r.val]'(by omega)).toInt)

/-- E_PERM (R192) and D_INVPERM (R198): `M'[r][c] = M[(r + 2) mod 4][7 − c]`, the cells moved whole (R165,
R166). -/
def Obligations.PermutationStepsMoveEveryCell : Prop :=
  ∀ s : State,
    (∃ t, exec .ePerm s = .next t ∧ t = { s with matrix := ⟨t.matrix.bits, true⟩, phase := 10#5 } ∧
      ∀ (r : Fin 4) (c : Fin 8), t.matrix.bits[r][c] =
        (s.matrix.bits[(r.val + 2) % 4]'(Nat.mod_lt _ (by decide)))[7 - c.val]'(by omega)) ∧
    (∃ t, exec .dInvperm s = .next t ∧ t = { s with matrix := ⟨t.matrix.bits, true⟩, phase := 15#5 } ∧
      ∀ (r : Fin 4) (c : Fin 8), t.matrix.bits[r][c] =
        (s.matrix.bits[(r.val + 2) % 4]'(Nat.mod_lt _ (by decide)))[7 - c.val]'(by omega))

/-- E_EXPORT (R193) and D_EXPORT (R199): byte `c + 8*r` is the low 8 bits of `MATRIX[r][c]` (R167). -/
def Obligations.ExportStepsWriteTheLowBytes : Prop :=
  ∀ s : State,
    (∃ t, exec .eExport s = .next t ∧ t = { s with out := ⟨t.out.bits, true⟩, phase := 11#5 } ∧
      ∀ (r : Fin 4) (c : Fin 8),
        t.out.bits[c.val + 8 * r.val]'(by omega) = (s.matrix.bits[r][c]).extractLsb' 0 8) ∧
    (∃ t, exec .dExport s = .next t ∧ t = { s with fed := ⟨t.fed.bits, true⟩, phase := 16#5 } ∧
      ∀ (r : Fin 4) (c : Fin 8),
        t.fed.bits[c.val + 8 * r.val]'(by omega) = (s.matrix.bits[r][c]).extractLsb' 0 8)

/-- R168: the forward permutation followed by the inverse one, and either of them twice, gives the matrix back,
cell for cell. -/
def Obligations.PermutationIsAnInvolution : Prop :=
  ∀ s t u : State, ∀ i j : Instr, (i = .ePerm ∨ i = .dInvperm) → (j = .ePerm ∨ j = .dInvperm) →
    exec i s = .next t → exec j t = .next u → u.matrix.bits = s.matrix.bits

/-- R169, R165: load, permute, export takes byte `j` from byte `j xor 23`, on encrypt and on decrypt. -/
def Obligations.LoadPermuteExportMirrorsTheBlock : Prop :=
  ∀ s : State,
    (∃ t u v, exec .eLoad s = .next t ∧ exec .ePerm t = .next u ∧ exec .eExport u = .next v ∧
      ∀ j : Fin 32, v.out.bits[j] = s.fed.bits[mirrorIndex j]) ∧
    (∃ t u v, exec .dLoad s = .next t ∧ exec .dInvperm t = .next u ∧ exec .dExport u = .next v ∧
      ∀ j : Fin 32, v.fed.bits[j] = s.blk.bits[mirrorIndex j])

/-- R140: the general XOR fails (count 0, nothing written) if either input is longer than the capacity, else
writes and counts the shorter length; R141: with three 32-byte operands it is the 32-lane XOR. -/
def Obligations.GeneralXorAndItsThirtyTwoLanes : Prop :=
  (∀ a b o : List Byte,
    (o.length < a.length ∨ o.length < b.length → xorGeneral a b o = (0, o)) ∧
    (a.length ≤ o.length → b.length ≤ o.length →
      (xorGeneral a b o).1 = min a.length b.length ∧ (xorGeneral a b o).2.length = o.length ∧
      ∀ k, (xorGeneral a b o).2[k]? =
        if k < min a.length b.length then
          (match a[k]?, b[k]? with | some x, some y => some (x ^^^ y) | _, _ => none)
        else o[k]?)) ∧
  (∀ a b o : Block, xorGeneral a.toList b.toList o.toList = (32, (xorBlock a b).toList))

/-- D_STRIP (R204, R214, R216): PADCNT is the last byte, OUTLEN falls by it modulo 2^32, and PT[TOTAL − p] becomes
0x00 exactly when 1 ≤ p ≤ TOTAL; every other byte and everything else stays. The terminator 0x00 is the spec's own
general knowledge (K2; log entry 17). -/
def Obligations.StripRemovesThePadding : Prop :=
  ∀ (s : State) (p : Byte), 1 ≤ s.total.bits.toNat → s.total.bits.toNat ≤ s.maxLen →
    s.pt.lookup (s.total.bits.toNat - 1) = some p →
    ∃ t, exec .dStrip s = .next t ∧
      t = { s with
        padcnt := ⟨p, true⟩, pt := t.pt, phase := 21#5,
        outlen := ⟨BitVec.ofNat 32 (s.outlen.bits.toNat + 2 ^ 32 - p.toNat), true⟩ } ∧
      ∀ a, t.pt.lookup a =
        if 1 ≤ p.toNat ∧ p.toNat ≤ s.total.bits.toNat ∧ a = s.total.bits.toNat - p.toNat then some 0x00#8
        else s.pt.lookup a

/-! ### The run commands -/

/-- R182, R185, R232: ENCRYPT and DECRYPT with the IV, the key or the input text unset fail PRECOND, and with an
input length above MAX_LEN fail CAPACITY; nothing but STATUS and RESULT changes, RESULT is SENTINEL. -/
def Obligations.RunCommandsFailBeforeTouchingAnything : Prop :=
  ∀ (len : Len) (s : State) (c : Cause),
    ((c = .precond ∧ (s.ivLen = 0#32 ∨ s.keyLen = 0#32 ∨ s.ptLen = 0#32)) ∨
     (c = .capacity ∧ ¬(s.ivLen = 0#32 ∨ s.keyLen = 0#32 ∨ s.ptLen = 0#32) ∧ s.maxLen < s.ptLen.toNat) →
      exec (.encrypt len) s = .next { s with
        op := ⟨0x8#4, true⟩, lenop := ⟨len, true⟩, phase := 0#5,
        status := ⟨false, c, false⟩, result := 0xFFFFFFFF#32,
        respPort := s.respPort ++ [⟨false, 0xFFFFFFFF#32⟩] }) ∧
    ((c = .precond ∧ (s.ivLen = 0#32 ∨ s.keyLen = 0#32 ∨ s.ctLen = 0#32)) ∨
     (c = .capacity ∧ ¬(s.ivLen = 0#32 ∨ s.keyLen = 0#32 ∨ s.ctLen = 0#32) ∧ s.maxLen < s.ctLen.toNat) →
      exec (.decrypt len) s = .next { s with
        op := ⟨0x9#4, true⟩, lenop := ⟨len, true⟩, phase := 0#5,
        status := ⟨false, c, false⟩, result := 0xFFFFFFFF#32,
        respPort := s.respPort ++ [⟨false, 0xFFFFFFFF#32⟩] })

/-- ENCRYPT (R180, R145, R209, R210): with the preconditions met it succeeds; block `i` of CT is the permuted F_i,
no byte from `total` on holds a value, CT_LEN = CT_EXT = RESULT = `total`, KEYROUND is the last F (K0 if there is
no block); only the working registers change besides. -/
def Obligations.EncryptWritesThePermutedChain : Prop :=
  ∀ (len : Len) (s : State) (n : Nat), n = s.ptLen.toNat / 32 →
    s.ivLen ≠ 0#32 → s.keyLen ≠ 0#32 → s.ptLen ≠ 0#32 → s.ptLen.toNat ≤ s.maxLen →
    ∃ t, exec (.encrypt len) s = .next t ∧
      t = { s with
        ct := t.ct, ctLen := BitVec.ofNat 32 (32 * n), ctExt := BitVec.ofNat 32 (32 * n),
        keyround := t.keyround, matrix := t.matrix, blk := t.blk, fed := t.fed, out := t.out,
        blkcnt := t.blkcnt, nmemb := t.nmemb, total := t.total, outlen := t.outlen,
        op := ⟨0x8#4, true⟩, lenop := ⟨len, true⟩, phase := 0#5,
        status := ⟨true, .none, false⟩, result := BitVec.ofNat 32 (32 * n),
        respPort := s.respPort ++ [⟨true, BitVec.ofNat 32 (32 * n)⟩] } ∧
      (∀ i < n, ∀ j : Fin 32, t.ct.lookup (32 * i + j.val) = some (s.fedByte i (mirrorIndex j))) ∧
      (∀ a, 32 * n ≤ a → t.ct.lookup a = none) ∧
      t.keyround.held = true ∧
      (∀ j : Fin 32, t.keyround.bits[j] = if n = 0 then s.k0Byte j else s.fedByte (n - 1) j)

/-- DECRYPT (R181, R145, R214 to R218): with the preconditions met and at least one block it succeeds; PT holds the
recovered blocks Q_i but for the terminator, no byte from `total` on holds a value, PT_EXT = `total`, PT_LEN =
RESULT = (`total` − p) mod 2^32 with p the last recovered byte, PADUF exactly when p > `total`, KEYROUND is the last
Q; only the working registers change besides. The terminator 0x00 is the spec's own general knowledge (K2; log
entry 17). -/
def Obligations.DecryptWritesTheRecoveredBlocksAndStrips : Prop :=
  ∀ (len : Len) (s : State) (n : Nat) (p : Byte), n = s.ctLen.toNat / 32 → p = s.recoveredByte (n - 1) 31 →
    s.ivLen ≠ 0#32 → s.keyLen ≠ 0#32 → 32 ≤ s.ctLen.toNat → s.ctLen.toNat ≤ s.maxLen →
    ∃ t, exec (.decrypt len) s = .next t ∧
      t = { s with
        pt := t.pt, ptLen := BitVec.ofNat 32 (32 * n + 2 ^ 32 - p.toNat), ptExt := BitVec.ofNat 32 (32 * n),
        keyround := t.keyround, matrix := t.matrix, blk := t.blk, fed := t.fed, out := t.out,
        blkcnt := t.blkcnt, nmemb := t.nmemb, total := t.total, outlen := t.outlen, padcnt := ⟨p, true⟩,
        op := ⟨0x9#4, true⟩, lenop := ⟨len, true⟩, phase := 0#5,
        status := ⟨true, .none, decide (32 * n < p.toNat)⟩,
        result := BitVec.ofNat 32 (32 * n + 2 ^ 32 - p.toNat),
        respPort := s.respPort ++ [⟨true, BitVec.ofNat 32 (32 * n + 2 ^ 32 - p.toNat)⟩] } ∧
      (∀ i < n, ∀ j : Fin 32, t.pt.lookup (32 * i + j.val) =
        if 1 ≤ p.toNat ∧ p.toNat ≤ 32 * n ∧ 32 * i + j.val = 32 * n - p.toNat then some 0x00#8
        else some (s.recoveredByte i j)) ∧
      (∀ a, 32 * n ≤ a → t.pt.lookup a = none) ∧
      t.keyround.held = true ∧
      (∀ j : Fin 32, t.keyround.bits[j] = s.recoveredByte (n - 1) j)

/-- DECRYPT of a CT_LEN of 1 to 31, which R36 item 3 rules out, stops at PT[−1], an index PT does not have (log
entry 5). -/
def Obligations.DecryptOfLessThanABlockFaults : Prop :=
  ∀ (len : Len) (s : State), s.ivLen ≠ 0#32 → s.keyLen ≠ 0#32 → 1 ≤ s.ctLen.toNat → s.ctLen.toNat < 32 →
    s.ctLen.toNat ≤ s.maxLen → s.maxLen ≤ 2 ^ 31 →
    exec (.decrypt len) s = .fault (.outsideBuffer .pt (2 ^ 32 - 1))

/-- R206, R208: from IDLE with an ENCRYPT or DECRYPT packet presented, the micro-steps reach exactly the state of the
command: after the acceptance and R_CHECK if it fails, else after the acceptance and `4 + 9 × nmemb` (ENCRYPT) or
`5 + 9 × nmemb` (DECRYPT) micro-steps. -/
def Obligations.MicroStepsReachTheCommandState : Prop :=
  ∀ (s : State) (h : Header) (rest : List Header),
    s.resetIn = false → s.phase = 0#5 → s.level = .microstep → s.cmdPort = h :: rest →
    (opField h = 0x8#4 →
      (s.ivLen = 0#32 ∨ s.keyLen = 0#32 ∨ s.ptLen = 0#32 ∨ s.maxLen < s.ptLen.toNat →
        steps (1 + 1) s = exec (.encrypt (lenField h)) { s with cmdPort := rest }) ∧
      (¬(s.ivLen = 0#32 ∨ s.keyLen = 0#32 ∨ s.ptLen = 0#32 ∨ s.maxLen < s.ptLen.toNat) →
        steps (1 + (4 + 9 * (s.ptLen.toNat / 32))) s =
          exec (.encrypt (lenField h)) { s with cmdPort := rest })) ∧
    (opField h = 0x9#4 →
      (s.ivLen = 0#32 ∨ s.keyLen = 0#32 ∨ s.ctLen = 0#32 ∨ s.maxLen < s.ctLen.toNat →
        steps (1 + 1) s = exec (.decrypt (lenField h)) { s with cmdPort := rest }) ∧
      (¬(s.ivLen = 0#32 ∨ s.keyLen = 0#32 ∨ s.ctLen = 0#32 ∨ s.maxLen < s.ctLen.toNat) →
        steps (1 + (5 + 9 * (s.ctLen.toNat / 32))) s =
          exec (.decrypt (lenField h)) { s with cmdPort := rest }))

/-- R120, R96, R208: an update command and a reserved run command reach the command's state in the acceptance and
one micro-step. -/
def Obligations.UpdatesAndReservedCommandsTakeOneMicroStep : Prop :=
  ∀ (s : State) (h : Header) (rest : List Header),
    s.resetIn = false → s.phase = 0#5 → s.level = .microstep → s.cmdPort = h :: rest →
    opField h ≠ 0x8#4 → opField h ≠ 0x9#4 →
    steps (1 + 1) s = exec (decodeHeader h) { s with cmdPort := rest }

/-- R146: ENCRYPT of `n` ≥ 1 blocks and then DECRYPT of what it wrote, with the same KEY and IV, both succeed, and the
blocks DECRYPT writes are Q_0 = P_0, Q_1 = P_1 xor K0, Q_i = P_i xor Q_(i−2) (`State.roundTripByte`), in every byte but
the one the terminator overwrites; KEYROUND ends as the last of them. The closed form Q_i of R145 over the ciphertext
is the same block. -/
def Obligations.DecryptOfEncryptRecoversWhatTheChainAllows : Prop :=
  ∀ (len len' : Len) (s : State) (n : Nat) (p : Byte),
    n = s.ptLen.toNat / 32 → p = s.roundTripByte (n - 1) 31 →
    s.ivLen ≠ 0#32 → s.keyLen ≠ 0#32 → 32 ≤ s.ptLen.toNat → s.ptLen.toNat ≤ s.maxLen →
    ∃ t u, exec (.encrypt len) s = .next t ∧ exec (.decrypt len') t = .next u ∧
      u.status.ok = true ∧ u.ptExt = BitVec.ofNat 32 (32 * n) ∧
      u.ptLen = BitVec.ofNat 32 (32 * n + 2 ^ 32 - p.toNat) ∧
      (∀ i < n, ∀ j : Fin 32, ¬(1 ≤ p.toNat ∧ p.toNat ≤ 32 * n ∧ 32 * i + j.val = 32 * n - p.toNat) →
        u.pt.lookup (32 * i + j.val) = some (s.roundTripByte i j)) ∧
      (∀ j : Fin 32, u.keyround.bits[j] = s.roundTripByte (n - 1) j) ∧
      (∀ i < n, ∀ j : Fin 32, t.recoveredByte i j = s.roundTripByte i j)

/-- R147: ENCRYPT's output and final KEYROUND are functions of KEY, IV and PT[0 .. total − 1] alone, DECRYPT's of KEY,
IV and CT[0 .. total − 1] alone: two engines that agree there, and otherwise in nothing but the lengths and MAX_LEN,
give the same output bytes, count and KEYROUND. -/
def Obligations.RunCommandsDependOnlyOnKeyIvAndText : Prop :=
  ∀ (len len' : Len) (s s' : State),
    s.key.bits = s'.key.bits → s.iv.bits = s'.iv.bits → s.keyLen = s'.keyLen → s.ivLen = s'.ivLen →
    s.maxLen = s'.maxLen → s.keyLen ≠ 0#32 → s.ivLen ≠ 0#32 →
    (s.ptLen = s'.ptLen → s.ptLen ≠ 0#32 → s.ptLen.toNat ≤ s.maxLen →
      (∀ a, a < 32 * (s.ptLen.toNat / 32) → s.pt.byteAt .pt a = s'.pt.byteAt .pt a) →
      ∃ t t', exec (.encrypt len) s = .next t ∧ exec (.encrypt len') s' = .next t' ∧
        t.ct = t'.ct ∧ t.ctLen = t'.ctLen ∧ t.ctExt = t'.ctExt ∧ t.result = t'.result ∧
        t.status = t'.status ∧ t.keyround = t'.keyround) ∧
    (s.ctLen = s'.ctLen → 32 ≤ s.ctLen.toNat → s.ctLen.toNat ≤ s.maxLen →
      (∀ a, a < 32 * (s.ctLen.toNat / 32) → s.ct.byteAt .ct a = s'.ct.byteAt .ct a) →
      ∃ t t', exec (.decrypt len) s = .next t ∧ exec (.decrypt len') s' = .next t' ∧
        t.pt = t'.pt ∧ t.ptLen = t'.ptLen ∧ t.ptExt = t'.ptExt ∧ t.result = t'.result ∧
        t.status = t'.status ∧ t.keyround = t'.keyround)

/-- R148: a difference in plaintext block 0 alone reaches every ciphertext block, permuted. -/
def Obligations.DifferenceInBlockZeroReachesEveryBlock : Prop :=
  ∀ (len : Len) (s s' t t' : State) (n : Nat) (delta : Block),
    n = s.ptLen.toNat / 32 → s.key = s'.key → s.iv = s'.iv → s.ptLen = s'.ptLen → s.maxLen = s'.maxLen →
    s.ivLen ≠ 0#32 → s.keyLen ≠ 0#32 → s.ptLen ≠ 0#32 → s.ptLen.toNat ≤ s.maxLen →
    s'.ivLen ≠ 0#32 → s'.keyLen ≠ 0#32 →
    (∀ j : Fin 32, s'.plainByte 0 j = s.plainByte 0 j ^^^ delta[j]) →
    (∀ i, 0 < i → i < n → ∀ j : Fin 32, s'.plainByte i j = s.plainByte i j) →
    exec (.encrypt len) s = .next t → exec (.encrypt len) s' = .next t' →
    ∀ i < n, ∀ j : Fin 32,
      t'.ct.byteAt .ct (32 * i + j.val) = t.ct.byteAt .ct (32 * i + j.val) ^^^ delta[mirrorIndex j]

/-- R39: MATRIX, BLK, FED, OUT, the counters, PADCNT, OP, LENOP and the old KEYROUND carry nothing from one command to
the next: whatever they held, a successful run leaves the same surviving state. -/
def Obligations.WorkingRegistersCarryNothing : Prop :=
  ∀ (len : Len) (s s' : State) (i : Instr), (i = .encrypt len ∨ i = .decrypt len) →
    s' = { s with
      keyround := s'.keyround, matrix := s'.matrix, blk := s'.blk, fed := s'.fed, out := s'.out,
      blkcnt := s'.blkcnt, nmemb := s'.nmemb, total := s'.total, outlen := s'.outlen, padcnt := s'.padcnt,
      op := s'.op, lenop := s'.lenop } →
    ∀ t, exec i s = .next t → t.status.ok = true →
      ∃ t', exec i s' = .next t' ∧
        t' = { t with
          matrix := t'.matrix, blk := t'.blk, fed := t'.fed, out := t'.out, blkcnt := t'.blkcnt,
          nmemb := t'.nmemb, total := t'.total, outlen := t'.outlen, padcnt := t'.padcnt }
end

