-- ==== Sys2Proof/Laws/Datapath.lean ====
section
/-! SUPPORT. One lemma for each datapath operation: the bytes or cells it gives. -/

namespace Sys2Proof.Machine

/-- Lane `k` of the 32-lane XOR. -/
theorem xorBlock_get (a b : Block) (k : Nat) (hk : k < 32) : (xorBlock a b)[k] = a[k] ^^^ b[k] := by
  simp [xorBlock]

/-- XOR with the same block twice gives the block back. -/
theorem xorBlock_cancel (a b : Block) : xorBlock (xorBlock a b) b = a := by
  ext k hk
  rw [xorBlock_get, xorBlock_get, BitVec.xor_assoc, BitVec.xor_self, BitVec.xor_zero]

theorem matrixOf_get (f : Fin 4 → Fin 8 → Cell) (r : Fin 4) (c : Fin 8) : (matrixOf f)[r][c] = f r c := by
  simp [matrixOf]

/-- Two matrices with the same cells are equal. -/
theorem Matrix.ext_cells {m n : Matrix} (h : ∀ (r : Fin 4) (c : Fin 8), m[r][c] = n[r][c]) : m = n := by
  apply Vector.ext
  intro r hr
  apply Vector.ext
  intro c hc
  exact h ⟨r, hr⟩ ⟨c, hc⟩

/-- Cell `[r][c]` after LOAD. -/
theorem loadMatrix_get (s : Block) (r : Fin 4) (c : Fin 8) :
    (loadMatrix s)[r][c] = (s[cellIndex r c]).signExtend 32 := matrixOf_get _ r c

theorem zeroMatrix_get (r : Fin 4) (c : Fin 8) : zeroMatrix[r][c] = 0#32 := matrixOf_get _ r c

/-- The row that row `r` of PERMUTE comes from: `(r + 2) mod 4`. -/
theorem swap02_swap13 (r : Fin 4) : swap02 (swap13 r) = r + 2 := by revert r; decide

/-- The column that column `c` of PERMUTE comes from: `7 − c`. -/
theorem mirrorCol_eq (c : Fin 8) : mirrorCol c = 7 - c := by revert c; decide

/-- Cell `[r][c]` after PERMUTE is cell `[(r + 2) mod 4][7 − c]` before. -/
theorem permute_get (m : Matrix) (r : Fin 4) (c : Fin 8) : (permute m)[r][c] = m[r + 2][7 - c] := by
  simp only [permute, permGroup1, permGroup2, permGroup3, matrixOf_get, swap02_swap13, mirrorCol_eq]

/-- INVPERMUTE is the same function as PERMUTE. -/
theorem invPermute_eq_permute (m : Matrix) : invPermute m = permute m := rfl

/-- Byte `j` of EXPORT. -/
theorem exportMatrix_get (m : Matrix) (j : Fin 32) :
    (exportMatrix m)[j] = (m[cellRow j][cellCol j]).setWidth 8 := by
  simp [exportMatrix]

theorem cellIndex_row_col (j : Fin 32) : cellIndex (cellRow j) (cellCol j) = j := by revert j; decide

/-- `trunc_8(sext_32(b)) = b`. -/
theorem setWidth_signExtend (b : Byte) : (b.signExtend 32).setWidth 8 = b := by
  ext i hi
  simp only [BitVec.getElem_setWidth, BitVec.getLsbD_signExtend]
  have h1 : i < 32 := by omega
  simp [h1, hi]

end Sys2Proof.Machine
end

