-- ==== Sys2Proof/Laws/Memory.lean ====
section
/-! SUPPORT. The laws of buffer memories: read after write, and that every operation keeps the canonical
form. -/

namespace Sys2Proof.Machine

@[simp] theorem Memory.lookup_nil (k : Nat) : Memory.lookup [] k = none := rfl

theorem Memory.lookup_cons (a : Nat) (b : Byte) (m : Memory) (k : Nat) :
    Memory.lookup ((a, b) :: m) k = if a = k then some b else Memory.lookup m k := rfl

/-- Read after write: the written byte at its index, the old byte everywhere else. -/
theorem Memory.lookup_write (m : Memory) (k : Nat) (v : Byte) (a : Nat) :
    (m.write k v).lookup a = if k = a then some v else m.lookup a := by
  induction m with
  | nil => rfl
  | cons c m ih =>
    obtain ⟨x, b⟩ := c
    simp only [Memory.write]
    split
    · rfl
    · split
      · rename_i h; subst h; simp only [Memory.lookup_cons]; split <;> rfl
      · rename_i h1 h2
        simp only [Memory.lookup_cons, ih]
        split
        · rename_i h; subst h; simp [h2]
        · rfl

/-- Read after `MemWrite`: the bytes written in their range, the old bytes outside it. -/
theorem Memory.lookup_writeBytes (m : Memory) (a : Nat) (bs : List Byte) (k : Nat) :
    (m.writeBytes a bs).lookup k =
      if a ≤ k ∧ k < a + bs.length then bs[k - a]? else m.lookup k := by
  induction bs generalizing m a with
  | nil =>
    have : ¬ (a ≤ k ∧ k < a + ([] : List Byte).length) := by simp only [List.length_nil]; omega
    rw [if_neg this]; rfl
  | cons b bs ih =>
    rw [Memory.writeBytes, ih, Memory.lookup_write]
    simp only [List.length_cons]
    by_cases h1 : a + 1 ≤ k ∧ k < a + 1 + bs.length
    · rw [if_pos h1, if_pos (by omega), show k - a = (k - (a + 1)) + 1 by omega, List.getElem?_cons_succ]
    · rw [if_neg h1]
      by_cases h2 : a = k
      · subst h2; rw [if_pos rfl, if_pos (by omega)]; simp
      · rw [if_neg h2, if_neg (by omega)]

theorem Memory.wf_nil : Memory.wf [] := List.Pairwise.nil

/-- Every index of a written memory is the written one or an old one. -/
theorem Memory.mem_write {m : Memory} {k : Nat} {v : Byte} {c : Host.Cell} (h : c ∈ m.write k v) :
    c = (k, v) ∨ c ∈ m := by
  induction m with
  | nil => exact .inl (by simpa [Memory.write] using h)
  | cons d m ih =>
    obtain ⟨x, b⟩ := d
    simp only [Memory.write] at h
    split at h
    · simpa using h
    · split at h
      · rcases List.mem_cons.mp h with h | h
        · exact .inl h
        · exact .inr (List.mem_cons_of_mem _ h)
      · rcases List.mem_cons.mp h with h | h
        · exact .inr (h ▸ List.mem_cons_self)
        · exact (ih h).imp_right (List.mem_cons_of_mem _)

/-- A write keeps the canonical form. -/
theorem Memory.wf_write {m : Memory} (h : m.wf) (k : Nat) (v : Byte) : (m.write k v).wf := by
  induction m with
  | nil => exact List.pairwise_singleton _ _
  | cons d m ih =>
    obtain ⟨x, b⟩ := d
    obtain ⟨hx, hm⟩ := List.pairwise_cons.mp h
    simp only [Memory.write]
    split
    · rename_i hk
      refine List.pairwise_cons.mpr ⟨?_, h⟩
      intro c hc
      rcases List.mem_cons.mp hc with rfl | hc
      · exact hk
      · exact Nat.lt_trans hk (hx c hc)
    · split
      · rename_i hk; subst hk; exact List.pairwise_cons.mpr ⟨hx, hm⟩
      · rename_i h1 h2
        refine List.pairwise_cons.mpr ⟨?_, ih hm⟩
        intro c hc
        rcases Memory.mem_write hc with rfl | hc
        · show x < k; omega
        · exact hx c hc

/-- `MemWrite` keeps the canonical form. -/
theorem Memory.wf_writeBytes {m : Memory} (h : m.wf) (a : Nat) (bs : List Byte) : (m.writeBytes a bs).wf := by
  induction bs generalizing m a with
  | nil => exact h
  | cons b bs ih => exact ih (Memory.wf_write h a b) (a + 1)

/-- In the canonical form an index below the first entry is not listed. -/
theorem Memory.lookup_eq_none_of_lt {x : Nat} {b : Byte} {m : Memory} (h : Memory.wf ((x, b) :: m)) {a : Nat}
    (ha : a ≤ x) : Memory.lookup m a = none := by
  induction m with
  | nil => rfl
  | cons d m ih =>
    obtain ⟨y, e⟩ := d
    obtain ⟨hx, hm⟩ := List.pairwise_cons.mp h
    have hy : x < y := hx (y, e) List.mem_cons_self
    rw [Memory.lookup_cons, if_neg (by omega)]
    refine ih (List.pairwise_cons.mpr ⟨fun c hc => ?_, (List.pairwise_cons.mp hm).2⟩)
    exact hx c (List.mem_cons_of_mem _ hc)

/-- Two memories in canonical form that hold the same bytes are the same data. -/
theorem Memory.ext_of_wf {m n : Memory} (hm : m.wf) (hn : n.wf) (h : ∀ a, m.lookup a = n.lookup a) : m = n := by
  induction m generalizing n with
  | nil =>
    cases n with
    | nil => rfl
    | cons d n => obtain ⟨y, e⟩ := d; simpa [Memory.lookup_cons] using h y
  | cons c m ih =>
    obtain ⟨x, b⟩ := c
    cases n with
    | nil => simpa [Memory.lookup_cons] using h x
    | cons d n =>
      obtain ⟨y, e⟩ := d
      have hxy : x = y := by
        rcases Nat.lt_trichotomy x y with hlt | heq | hgt
        · have := h x
          rw [Memory.lookup_cons, Memory.lookup_cons, if_pos rfl, if_neg (by omega),
            Memory.lookup_eq_none_of_lt hn (by omega)] at this
          exact absurd this (by simp)
        · exact heq
        · have := h y
          rw [Memory.lookup_cons, Memory.lookup_cons, if_pos rfl, if_neg (by omega),
            Memory.lookup_eq_none_of_lt hm (by omega)] at this
          exact absurd this (by simp)
      subst hxy
      have hb : b = e := by simpa [Memory.lookup_cons] using h x
      subst hb
      congr 1
      refine ih (List.pairwise_cons.mp hm).2 (List.pairwise_cons.mp hn).2 fun a => ?_
      by_cases ha : x = a
      · subst ha
        rw [Memory.lookup_eq_none_of_lt hm (Nat.le_refl _), Memory.lookup_eq_none_of_lt hn (Nat.le_refl _)]
      · have := h a; rwa [Memory.lookup_cons, Memory.lookup_cons, if_neg ha, if_neg ha] at this

/-- An engine read of a byte that holds a value gives that value. -/
theorem Memory.byteAt_of_lookup {m : Memory} {a : Nat} {b : Byte} (h : m.lookup a = some b) (buffer : Buffer) :
    m.byteAt buffer a = b := by
  simp only [Memory.byteAt, h]

/-- Byte `k` of `MemRead(S, a, 32)`. -/
theorem Memory.readBlock_get (buffer : Buffer) (m : Memory) (a : Nat) (k : Nat) (hk : k < 32) :
    (m.readBlock buffer a)[k] = m.byteAt buffer (a + k) := by
  simp [Memory.readBlock]

end Sys2Proof.Machine
end

