-- ==== Sys2Proof/Laws/State.lean ====
section
/-! SUPPORT. One lemma for each field of State and each named update, true by rfl. -/

namespace Sys2Proof.Machine

@[simp] theorem Reg.value_bits {α : Type} (v : α) : (Reg.value v).bits = v := rfl
@[simp] theorem Reg.value_held {α : Type} (v : α) : (Reg.value v).held = true := rfl
@[simp] theorem Reg.noValue_bits {α : Type} (v : α) : (Reg.noValue v).bits = v := rfl
@[simp] theorem Reg.noValue_held {α : Type} (v : α) : (Reg.noValue v).held = false := rfl

/-- A register that holds a value is `Reg.value` of its bits. -/
theorem Reg.eq_value {α : Type} {r : Reg α} (h : r.held = true) : r = Reg.value r.bits := by
  cases r; cases h; rfl

/-- `done` is a completion (R230). -/
@[simp] theorem State.done_eq (p : Bool) (v : Len) (s : State) :
    s.done p v = s.complete true .none p v := rfl

/-- `fail` is a completion (R230). -/
@[simp] theorem State.fail_eq (c : Cause) (s : State) :
    s.fail c = s.complete false c false (failValue s.op.bits) := rfl

/-! ### latch -/

@[simp] theorem State.latch_key (o : BitVec 4) (l : Len) (p : PhaseCode) (s : State) :
    (s.latch o l p).key = s.key := rfl
@[simp] theorem State.latch_keyLen (o : BitVec 4) (l : Len) (p : PhaseCode) (s : State) :
    (s.latch o l p).keyLen = s.keyLen := rfl
@[simp] theorem State.latch_iv (o : BitVec 4) (l : Len) (p : PhaseCode) (s : State) :
    (s.latch o l p).iv = s.iv := rfl
@[simp] theorem State.latch_ivLen (o : BitVec 4) (l : Len) (p : PhaseCode) (s : State) :
    (s.latch o l p).ivLen = s.ivLen := rfl
@[simp] theorem State.latch_pt (o : BitVec 4) (l : Len) (p : PhaseCode) (s : State) :
    (s.latch o l p).pt = s.pt := rfl
@[simp] theorem State.latch_ptLen (o : BitVec 4) (l : Len) (p : PhaseCode) (s : State) :
    (s.latch o l p).ptLen = s.ptLen := rfl
@[simp] theorem State.latch_ptExt (o : BitVec 4) (l : Len) (p : PhaseCode) (s : State) :
    (s.latch o l p).ptExt = s.ptExt := rfl
@[simp] theorem State.latch_ct (o : BitVec 4) (l : Len) (p : PhaseCode) (s : State) :
    (s.latch o l p).ct = s.ct := rfl
@[simp] theorem State.latch_ctLen (o : BitVec 4) (l : Len) (p : PhaseCode) (s : State) :
    (s.latch o l p).ctLen = s.ctLen := rfl
@[simp] theorem State.latch_ctExt (o : BitVec 4) (l : Len) (p : PhaseCode) (s : State) :
    (s.latch o l p).ctExt = s.ctExt := rfl
@[simp] theorem State.latch_keyround (o : BitVec 4) (l : Len) (p : PhaseCode) (s : State) :
    (s.latch o l p).keyround = s.keyround := rfl
@[simp] theorem State.latch_matrix (o : BitVec 4) (l : Len) (p : PhaseCode) (s : State) :
    (s.latch o l p).matrix = s.matrix := rfl
@[simp] theorem State.latch_blk (o : BitVec 4) (l : Len) (p : PhaseCode) (s : State) :
    (s.latch o l p).blk = s.blk := rfl
@[simp] theorem State.latch_fed (o : BitVec 4) (l : Len) (p : PhaseCode) (s : State) :
    (s.latch o l p).fed = s.fed := rfl
@[simp] theorem State.latch_out (o : BitVec 4) (l : Len) (p : PhaseCode) (s : State) :
    (s.latch o l p).out = s.out := rfl
@[simp] theorem State.latch_blkcnt (o : BitVec 4) (l : Len) (p : PhaseCode) (s : State) :
    (s.latch o l p).blkcnt = s.blkcnt := rfl
@[simp] theorem State.latch_nmemb (o : BitVec 4) (l : Len) (p : PhaseCode) (s : State) :
    (s.latch o l p).nmemb = s.nmemb := rfl
@[simp] theorem State.latch_total (o : BitVec 4) (l : Len) (p : PhaseCode) (s : State) :
    (s.latch o l p).total = s.total := rfl
@[simp] theorem State.latch_outlen (o : BitVec 4) (l : Len) (p : PhaseCode) (s : State) :
    (s.latch o l p).outlen = s.outlen := rfl
@[simp] theorem State.latch_padcnt (o : BitVec 4) (l : Len) (p : PhaseCode) (s : State) :
    (s.latch o l p).padcnt = s.padcnt := rfl
@[simp] theorem State.latch_phase (o : BitVec 4) (l : Len) (p : PhaseCode) (s : State) :
    (s.latch o l p).phase = p := rfl
@[simp] theorem State.latch_op (o : BitVec 4) (l : Len) (p : PhaseCode) (s : State) :
    (s.latch o l p).op = .value o := rfl
@[simp] theorem State.latch_lenop (o : BitVec 4) (l : Len) (p : PhaseCode) (s : State) :
    (s.latch o l p).lenop = .value l := rfl
@[simp] theorem State.latch_status (o : BitVec 4) (l : Len) (p : PhaseCode) (s : State) :
    (s.latch o l p).status = s.status := rfl
@[simp] theorem State.latch_result (o : BitVec 4) (l : Len) (p : PhaseCode) (s : State) :
    (s.latch o l p).result = s.result := rfl
@[simp] theorem State.latch_cmdPort (o : BitVec 4) (l : Len) (p : PhaseCode) (s : State) :
    (s.latch o l p).cmdPort = s.cmdPort := rfl
@[simp] theorem State.latch_payPort (o : BitVec 4) (l : Len) (p : PhaseCode) (s : State) :
    (s.latch o l p).payPort = s.payPort := rfl
@[simp] theorem State.latch_respPort (o : BitVec 4) (l : Len) (p : PhaseCode) (s : State) :
    (s.latch o l p).respPort = s.respPort := rfl
@[simp] theorem State.latch_resetIn (o : BitVec 4) (l : Len) (p : PhaseCode) (s : State) :
    (s.latch o l p).resetIn = s.resetIn := rfl
@[simp] theorem State.latch_storageFault (o : BitVec 4) (l : Len) (p : PhaseCode) (s : State) :
    (s.latch o l p).storageFault = s.storageFault := rfl
@[simp] theorem State.latch_maxLen (o : BitVec 4) (l : Len) (p : PhaseCode) (s : State) :
    (s.latch o l p).maxLen = s.maxLen := rfl
@[simp] theorem State.latch_level (o : BitVec 4) (l : Len) (p : PhaseCode) (s : State) :
    (s.latch o l p).level = s.level := rfl

/-! ### complete -/

@[simp] theorem State.complete_key (ok : Bool) (e : Cause) (u : Bool) (v : Len) (s : State) :
    (s.complete ok e u v).key = s.key := rfl
@[simp] theorem State.complete_keyLen (ok : Bool) (e : Cause) (u : Bool) (v : Len) (s : State) :
    (s.complete ok e u v).keyLen = s.keyLen := rfl
@[simp] theorem State.complete_iv (ok : Bool) (e : Cause) (u : Bool) (v : Len) (s : State) :
    (s.complete ok e u v).iv = s.iv := rfl
@[simp] theorem State.complete_ivLen (ok : Bool) (e : Cause) (u : Bool) (v : Len) (s : State) :
    (s.complete ok e u v).ivLen = s.ivLen := rfl
@[simp] theorem State.complete_pt (ok : Bool) (e : Cause) (u : Bool) (v : Len) (s : State) :
    (s.complete ok e u v).pt = s.pt := rfl
@[simp] theorem State.complete_ptLen (ok : Bool) (e : Cause) (u : Bool) (v : Len) (s : State) :
    (s.complete ok e u v).ptLen = s.ptLen := rfl
@[simp] theorem State.complete_ptExt (ok : Bool) (e : Cause) (u : Bool) (v : Len) (s : State) :
    (s.complete ok e u v).ptExt = s.ptExt := rfl
@[simp] theorem State.complete_ct (ok : Bool) (e : Cause) (u : Bool) (v : Len) (s : State) :
    (s.complete ok e u v).ct = s.ct := rfl
@[simp] theorem State.complete_ctLen (ok : Bool) (e : Cause) (u : Bool) (v : Len) (s : State) :
    (s.complete ok e u v).ctLen = s.ctLen := rfl
@[simp] theorem State.complete_ctExt (ok : Bool) (e : Cause) (u : Bool) (v : Len) (s : State) :
    (s.complete ok e u v).ctExt = s.ctExt := rfl
@[simp] theorem State.complete_keyround (ok : Bool) (e : Cause) (u : Bool) (v : Len) (s : State) :
    (s.complete ok e u v).keyround = s.keyround := rfl
@[simp] theorem State.complete_matrix (ok : Bool) (e : Cause) (u : Bool) (v : Len) (s : State) :
    (s.complete ok e u v).matrix = s.matrix := rfl
@[simp] theorem State.complete_blk (ok : Bool) (e : Cause) (u : Bool) (v : Len) (s : State) :
    (s.complete ok e u v).blk = s.blk := rfl
@[simp] theorem State.complete_fed (ok : Bool) (e : Cause) (u : Bool) (v : Len) (s : State) :
    (s.complete ok e u v).fed = s.fed := rfl
@[simp] theorem State.complete_out (ok : Bool) (e : Cause) (u : Bool) (v : Len) (s : State) :
    (s.complete ok e u v).out = s.out := rfl
@[simp] theorem State.complete_blkcnt (ok : Bool) (e : Cause) (u : Bool) (v : Len) (s : State) :
    (s.complete ok e u v).blkcnt = s.blkcnt := rfl
@[simp] theorem State.complete_nmemb (ok : Bool) (e : Cause) (u : Bool) (v : Len) (s : State) :
    (s.complete ok e u v).nmemb = s.nmemb := rfl
@[simp] theorem State.complete_total (ok : Bool) (e : Cause) (u : Bool) (v : Len) (s : State) :
    (s.complete ok e u v).total = s.total := rfl
@[simp] theorem State.complete_outlen (ok : Bool) (e : Cause) (u : Bool) (v : Len) (s : State) :
    (s.complete ok e u v).outlen = s.outlen := rfl
@[simp] theorem State.complete_padcnt (ok : Bool) (e : Cause) (u : Bool) (v : Len) (s : State) :
    (s.complete ok e u v).padcnt = s.padcnt := rfl
@[simp] theorem State.complete_phase (ok : Bool) (e : Cause) (u : Bool) (v : Len) (s : State) :
    (s.complete ok e u v).phase = 0#5 := rfl
@[simp] theorem State.complete_op (ok : Bool) (e : Cause) (u : Bool) (v : Len) (s : State) :
    (s.complete ok e u v).op = s.op := rfl
@[simp] theorem State.complete_lenop (ok : Bool) (e : Cause) (u : Bool) (v : Len) (s : State) :
    (s.complete ok e u v).lenop = s.lenop := rfl
@[simp] theorem State.complete_status (ok : Bool) (e : Cause) (u : Bool) (v : Len) (s : State) :
    (s.complete ok e u v).status = ⟨ok, e, u⟩ := rfl
@[simp] theorem State.complete_result (ok : Bool) (e : Cause) (u : Bool) (v : Len) (s : State) :
    (s.complete ok e u v).result = v := rfl
@[simp] theorem State.complete_cmdPort (ok : Bool) (e : Cause) (u : Bool) (v : Len) (s : State) :
    (s.complete ok e u v).cmdPort = s.cmdPort := rfl
@[simp] theorem State.complete_payPort (ok : Bool) (e : Cause) (u : Bool) (v : Len) (s : State) :
    (s.complete ok e u v).payPort = s.payPort := rfl
@[simp] theorem State.complete_respPort (ok : Bool) (e : Cause) (u : Bool) (v : Len) (s : State) :
    (s.complete ok e u v).respPort = s.respPort ++ [⟨ok, v⟩] := rfl
@[simp] theorem State.complete_resetIn (ok : Bool) (e : Cause) (u : Bool) (v : Len) (s : State) :
    (s.complete ok e u v).resetIn = s.resetIn := rfl
@[simp] theorem State.complete_storageFault (ok : Bool) (e : Cause) (u : Bool) (v : Len) (s : State) :
    (s.complete ok e u v).storageFault = s.storageFault := rfl
@[simp] theorem State.complete_maxLen (ok : Bool) (e : Cause) (u : Bool) (v : Len) (s : State) :
    (s.complete ok e u v).maxLen = s.maxLen := rfl
@[simp] theorem State.complete_level (ok : Bool) (e : Cause) (u : Bool) (v : Len) (s : State) :
    (s.complete ok e u v).level = s.level := rfl

/-! ### allocPt -/

@[simp] theorem State.allocPt_key (s : State) :
    (s.allocPt).key = s.key := rfl
@[simp] theorem State.allocPt_keyLen (s : State) :
    (s.allocPt).keyLen = s.keyLen := rfl
@[simp] theorem State.allocPt_iv (s : State) :
    (s.allocPt).iv = s.iv := rfl
@[simp] theorem State.allocPt_ivLen (s : State) :
    (s.allocPt).ivLen = s.ivLen := rfl
@[simp] theorem State.allocPt_pt (s : State) :
    (s.allocPt).pt = [] := rfl
@[simp] theorem State.allocPt_ptLen (s : State) :
    (s.allocPt).ptLen = s.ptLen := rfl
@[simp] theorem State.allocPt_ptExt (s : State) :
    (s.allocPt).ptExt = 0#32 := rfl
@[simp] theorem State.allocPt_ct (s : State) :
    (s.allocPt).ct = s.ct := rfl
@[simp] theorem State.allocPt_ctLen (s : State) :
    (s.allocPt).ctLen = s.ctLen := rfl
@[simp] theorem State.allocPt_ctExt (s : State) :
    (s.allocPt).ctExt = s.ctExt := rfl
@[simp] theorem State.allocPt_keyround (s : State) :
    (s.allocPt).keyround = s.keyround := rfl
@[simp] theorem State.allocPt_matrix (s : State) :
    (s.allocPt).matrix = s.matrix := rfl
@[simp] theorem State.allocPt_blk (s : State) :
    (s.allocPt).blk = s.blk := rfl
@[simp] theorem State.allocPt_fed (s : State) :
    (s.allocPt).fed = s.fed := rfl
@[simp] theorem State.allocPt_out (s : State) :
    (s.allocPt).out = s.out := rfl
@[simp] theorem State.allocPt_blkcnt (s : State) :
    (s.allocPt).blkcnt = s.blkcnt := rfl
@[simp] theorem State.allocPt_nmemb (s : State) :
    (s.allocPt).nmemb = s.nmemb := rfl
@[simp] theorem State.allocPt_total (s : State) :
    (s.allocPt).total = s.total := rfl
@[simp] theorem State.allocPt_outlen (s : State) :
    (s.allocPt).outlen = s.outlen := rfl
@[simp] theorem State.allocPt_padcnt (s : State) :
    (s.allocPt).padcnt = s.padcnt := rfl
@[simp] theorem State.allocPt_phase (s : State) :
    (s.allocPt).phase = s.phase := rfl
@[simp] theorem State.allocPt_op (s : State) :
    (s.allocPt).op = s.op := rfl
@[simp] theorem State.allocPt_lenop (s : State) :
    (s.allocPt).lenop = s.lenop := rfl
@[simp] theorem State.allocPt_status (s : State) :
    (s.allocPt).status = s.status := rfl
@[simp] theorem State.allocPt_result (s : State) :
    (s.allocPt).result = s.result := rfl
@[simp] theorem State.allocPt_cmdPort (s : State) :
    (s.allocPt).cmdPort = s.cmdPort := rfl
@[simp] theorem State.allocPt_payPort (s : State) :
    (s.allocPt).payPort = s.payPort := rfl
@[simp] theorem State.allocPt_respPort (s : State) :
    (s.allocPt).respPort = s.respPort := rfl
@[simp] theorem State.allocPt_resetIn (s : State) :
    (s.allocPt).resetIn = s.resetIn := rfl
@[simp] theorem State.allocPt_storageFault (s : State) :
    (s.allocPt).storageFault = s.storageFault := rfl
@[simp] theorem State.allocPt_maxLen (s : State) :
    (s.allocPt).maxLen = s.maxLen := rfl
@[simp] theorem State.allocPt_level (s : State) :
    (s.allocPt).level = s.level := rfl

/-! ### allocCt -/

@[simp] theorem State.allocCt_key (s : State) :
    (s.allocCt).key = s.key := rfl
@[simp] theorem State.allocCt_keyLen (s : State) :
    (s.allocCt).keyLen = s.keyLen := rfl
@[simp] theorem State.allocCt_iv (s : State) :
    (s.allocCt).iv = s.iv := rfl
@[simp] theorem State.allocCt_ivLen (s : State) :
    (s.allocCt).ivLen = s.ivLen := rfl
@[simp] theorem State.allocCt_pt (s : State) :
    (s.allocCt).pt = s.pt := rfl
@[simp] theorem State.allocCt_ptLen (s : State) :
    (s.allocCt).ptLen = s.ptLen := rfl
@[simp] theorem State.allocCt_ptExt (s : State) :
    (s.allocCt).ptExt = s.ptExt := rfl
@[simp] theorem State.allocCt_ct (s : State) :
    (s.allocCt).ct = [] := rfl
@[simp] theorem State.allocCt_ctLen (s : State) :
    (s.allocCt).ctLen = s.ctLen := rfl
@[simp] theorem State.allocCt_ctExt (s : State) :
    (s.allocCt).ctExt = 0#32 := rfl
@[simp] theorem State.allocCt_keyround (s : State) :
    (s.allocCt).keyround = s.keyround := rfl
@[simp] theorem State.allocCt_matrix (s : State) :
    (s.allocCt).matrix = s.matrix := rfl
@[simp] theorem State.allocCt_blk (s : State) :
    (s.allocCt).blk = s.blk := rfl
@[simp] theorem State.allocCt_fed (s : State) :
    (s.allocCt).fed = s.fed := rfl
@[simp] theorem State.allocCt_out (s : State) :
    (s.allocCt).out = s.out := rfl
@[simp] theorem State.allocCt_blkcnt (s : State) :
    (s.allocCt).blkcnt = s.blkcnt := rfl
@[simp] theorem State.allocCt_nmemb (s : State) :
    (s.allocCt).nmemb = s.nmemb := rfl
@[simp] theorem State.allocCt_total (s : State) :
    (s.allocCt).total = s.total := rfl
@[simp] theorem State.allocCt_outlen (s : State) :
    (s.allocCt).outlen = s.outlen := rfl
@[simp] theorem State.allocCt_padcnt (s : State) :
    (s.allocCt).padcnt = s.padcnt := rfl
@[simp] theorem State.allocCt_phase (s : State) :
    (s.allocCt).phase = s.phase := rfl
@[simp] theorem State.allocCt_op (s : State) :
    (s.allocCt).op = s.op := rfl
@[simp] theorem State.allocCt_lenop (s : State) :
    (s.allocCt).lenop = s.lenop := rfl
@[simp] theorem State.allocCt_status (s : State) :
    (s.allocCt).status = s.status := rfl
@[simp] theorem State.allocCt_result (s : State) :
    (s.allocCt).result = s.result := rfl
@[simp] theorem State.allocCt_cmdPort (s : State) :
    (s.allocCt).cmdPort = s.cmdPort := rfl
@[simp] theorem State.allocCt_payPort (s : State) :
    (s.allocCt).payPort = s.payPort := rfl
@[simp] theorem State.allocCt_respPort (s : State) :
    (s.allocCt).respPort = s.respPort := rfl
@[simp] theorem State.allocCt_resetIn (s : State) :
    (s.allocCt).resetIn = s.resetIn := rfl
@[simp] theorem State.allocCt_storageFault (s : State) :
    (s.allocCt).storageFault = s.storageFault := rfl
@[simp] theorem State.allocCt_maxLen (s : State) :
    (s.allocCt).maxLen = s.maxLen := rfl
@[simp] theorem State.allocCt_level (s : State) :
    (s.allocCt).level = s.level := rfl

/-! ### toReset -/

@[simp] theorem State.toReset_key (s : State) :
    (s.toReset).key = (State.resetWith s.maxLen).key := rfl
@[simp] theorem State.toReset_keyLen (s : State) :
    (s.toReset).keyLen = (State.resetWith s.maxLen).keyLen := rfl
@[simp] theorem State.toReset_iv (s : State) :
    (s.toReset).iv = (State.resetWith s.maxLen).iv := rfl
@[simp] theorem State.toReset_ivLen (s : State) :
    (s.toReset).ivLen = (State.resetWith s.maxLen).ivLen := rfl
@[simp] theorem State.toReset_pt (s : State) :
    (s.toReset).pt = (State.resetWith s.maxLen).pt := rfl
@[simp] theorem State.toReset_ptLen (s : State) :
    (s.toReset).ptLen = (State.resetWith s.maxLen).ptLen := rfl
@[simp] theorem State.toReset_ptExt (s : State) :
    (s.toReset).ptExt = (State.resetWith s.maxLen).ptExt := rfl
@[simp] theorem State.toReset_ct (s : State) :
    (s.toReset).ct = (State.resetWith s.maxLen).ct := rfl
@[simp] theorem State.toReset_ctLen (s : State) :
    (s.toReset).ctLen = (State.resetWith s.maxLen).ctLen := rfl
@[simp] theorem State.toReset_ctExt (s : State) :
    (s.toReset).ctExt = (State.resetWith s.maxLen).ctExt := rfl
@[simp] theorem State.toReset_keyround (s : State) :
    (s.toReset).keyround = (State.resetWith s.maxLen).keyround := rfl
@[simp] theorem State.toReset_matrix (s : State) :
    (s.toReset).matrix = (State.resetWith s.maxLen).matrix := rfl
@[simp] theorem State.toReset_blk (s : State) :
    (s.toReset).blk = (State.resetWith s.maxLen).blk := rfl
@[simp] theorem State.toReset_fed (s : State) :
    (s.toReset).fed = (State.resetWith s.maxLen).fed := rfl
@[simp] theorem State.toReset_out (s : State) :
    (s.toReset).out = (State.resetWith s.maxLen).out := rfl
@[simp] theorem State.toReset_blkcnt (s : State) :
    (s.toReset).blkcnt = (State.resetWith s.maxLen).blkcnt := rfl
@[simp] theorem State.toReset_nmemb (s : State) :
    (s.toReset).nmemb = (State.resetWith s.maxLen).nmemb := rfl
@[simp] theorem State.toReset_total (s : State) :
    (s.toReset).total = (State.resetWith s.maxLen).total := rfl
@[simp] theorem State.toReset_outlen (s : State) :
    (s.toReset).outlen = (State.resetWith s.maxLen).outlen := rfl
@[simp] theorem State.toReset_padcnt (s : State) :
    (s.toReset).padcnt = (State.resetWith s.maxLen).padcnt := rfl
@[simp] theorem State.toReset_phase (s : State) :
    (s.toReset).phase = (State.resetWith s.maxLen).phase := rfl
@[simp] theorem State.toReset_op (s : State) :
    (s.toReset).op = (State.resetWith s.maxLen).op := rfl
@[simp] theorem State.toReset_lenop (s : State) :
    (s.toReset).lenop = (State.resetWith s.maxLen).lenop := rfl
@[simp] theorem State.toReset_status (s : State) :
    (s.toReset).status = (State.resetWith s.maxLen).status := rfl
@[simp] theorem State.toReset_result (s : State) :
    (s.toReset).result = (State.resetWith s.maxLen).result := rfl
@[simp] theorem State.toReset_cmdPort (s : State) :
    (s.toReset).cmdPort = s.cmdPort := rfl
@[simp] theorem State.toReset_payPort (s : State) :
    (s.toReset).payPort = s.payloadAfterReset := rfl
@[simp] theorem State.toReset_respPort (s : State) :
    (s.toReset).respPort = s.respPort := rfl
@[simp] theorem State.toReset_resetIn (s : State) :
    (s.toReset).resetIn = s.resetIn := rfl
@[simp] theorem State.toReset_storageFault (s : State) :
    (s.toReset).storageFault = s.storageFault := rfl
@[simp] theorem State.toReset_maxLen (s : State) :
    (s.toReset).maxLen = s.maxLen := rfl
@[simp] theorem State.toReset_level (s : State) :
    (s.toReset).level = s.level := rfl

end Sys2Proof.Machine
end

