-- ==== Sys2Proof/Laws/Ops.lean ====
section
/-! SUPPORT. One lemma for each shared operation that says all it can do. -/

namespace Sys2Proof.Machine

/-! ### Payloads -/

/-- The payload port begins with the 32 bytes of a block: they are taken, the rest stays. -/
theorem takeBlock_append (b : Block) (rest : List Byte) : takeBlock (b.toList ++ rest) = some (b, rest) := by
  have hl : b.toList.length = 32 := b.size_toArray
  have h : 32 ≤ (b.toList ++ rest).length := by rw [List.length_append]; omega
  rw [takeBlock, dif_pos h, Option.some.injEq, Prod.mk.injEq]
  refine ⟨?_, ?_⟩
  · apply Vector.ext
    intro k hk
    simp only [Vector.getElem_ofFn]
    rw [List.getElem_append_left (by omega)]
    simp
  · rw [List.drop_append_of_le_length (by omega), List.drop_eq_nil_of_le (by omega), List.nil_append]

/-- Fewer than 32 bytes: nothing is taken. -/
theorem takeBlock_eq_none {port : List Byte} (h : port.length < 32) : takeBlock port = none := by
  rw [takeBlock, dif_neg (by omega)]

/-- What `takeBlock` can answer. -/
theorem takeBlock_cases (port : List Byte) :
    (port.length < 32 ∧ takeBlock port = none) ∨
    ∃ (b : Block) (rest : List Byte), port = b.toList ++ rest ∧ takeBlock port = some (b, rest) := by
  by_cases h : 32 ≤ port.length
  · right
    have hb : (⟨(port.take 32).toArray, by simp; omega⟩ : Block).toList ++ port.drop 32 = port := by
      simp [Vector.toList]
    exact ⟨_, _, hb.symm, by conv_lhs => rw [← hb]; exact takeBlock_append _ _⟩
  · exact .inl ⟨by omega, takeBlock_eq_none (by omega)⟩

/-- The payload port begins with `n` bytes: they are taken, the rest stays. -/
theorem takeBytes_append (bs rest : List Byte) : takeBytes bs.length (bs ++ rest) = some (bs, rest) := by
  rw [takeBytes, if_pos (by simp)]
  simp

/-- What `takeBytes` can answer. -/
theorem takeBytes_cases (n : Nat) (port : List Byte) :
    (port.length < n ∧ takeBytes n port = none) ∨
    ∃ bs rest : List Byte, bs.length = n ∧ port = bs ++ rest ∧ takeBytes n port = some (bs, rest) := by
  by_cases h : n ≤ port.length
  · exact .inr ⟨port.take n, port.drop n, by simp; omega, (List.take_append_drop n port).symm, if_pos h⟩
  · exact .inl ⟨by omega, if_neg h⟩

/-! ### Updates -/

/-- What SET_IV can do (R121): wait, fail VERIFY, or set IV. -/
theorem State.updateIv_cases (s : State) :
    (s.payPort.length < 32 ∧ s.updateIv = s) ∨
    ∃ (b : Block) (rest : List Byte), s.payPort = b.toList ++ rest ∧
      ((s.stored b ≠ b ∧ s.updateIv =
          ({ s with payPort := rest, iv := .value (s.stored b), storageFault := none } : State).fail .verify) ∨
       (s.stored b = b ∧ s.updateIv =
          ({ s with payPort := rest, iv := .value b, storageFault := none, ivLen := 32#32 } : State).done
            false 1#32)) := by
  rcases takeBlock_cases s.payPort with ⟨h, e⟩ | ⟨b, rest, h, e⟩
  · exact .inl ⟨h, by rw [State.updateIv, e]⟩
  · refine .inr ⟨b, rest, h, ?_⟩
    by_cases hb : s.stored b = b
    · exact .inr ⟨hb, by rw [State.updateIv, e]; simp [hb]⟩
    · exact .inl ⟨hb, by rw [State.updateIv, e]; simp [hb]⟩

/-- What SET_KEY can do (R122). -/
theorem State.updateKey_cases (s : State) :
    (s.payPort.length < 32 ∧ s.updateKey = s) ∨
    ∃ (b : Block) (rest : List Byte), s.payPort = b.toList ++ rest ∧
      ((s.stored b ≠ b ∧ s.updateKey =
          ({ s with payPort := rest, key := .value (s.stored b), storageFault := none } : State).fail .verify) ∨
       (s.stored b = b ∧ s.updateKey =
          ({ s with payPort := rest, key := .value b, storageFault := none, keyLen := 32#32 } : State).done
            false 1#32)) := by
  rcases takeBlock_cases s.payPort with ⟨h, e⟩ | ⟨b, rest, h, e⟩
  · exact .inl ⟨h, by rw [State.updateKey, e]⟩
  · refine .inr ⟨b, rest, h, ?_⟩
    by_cases hb : s.stored b = b
    · exact .inr ⟨hb, by rw [State.updateKey, e]; simp [hb]⟩
    · exact .inl ⟨hb, by rw [State.updateKey, e]; simp [hb]⟩

/-- What SET_PLAINTEXT can do (R123): fail SHORT, fail CAPACITY, wait, or set PT. -/
theorem State.updatePlaintext_cases (s : State) :
    (s.lenop.bits.toNat < 32 ∧ s.updatePlaintext = s.fail .short) ∨
    (32 ≤ s.lenop.bits.toNat ∧ s.maxLen < s.lenop.bits.toNat ∧ s.updatePlaintext = s.fail .capacity) ∨
    (32 ≤ s.lenop.bits.toNat ∧ s.lenop.bits.toNat ≤ s.maxLen ∧
      ((s.payPort.length < s.lenop.bits.toNat ∧ s.updatePlaintext = s) ∨
       ∃ bs rest : List Byte, bs.length = s.lenop.bits.toNat ∧ s.payPort = bs ++ rest ∧
        s.updatePlaintext =
          ({ s with
              payPort := rest
              pt := Memory.writeBytes [] 0 bs
              ptExt := s.lenop.bits
              ptLen := s.lenop.bits } : State).done false 1#32)) := by
  by_cases h1 : s.lenop.bits.toNat < 32
  · exact .inl ⟨h1, by simp only [State.updatePlaintext]; rw [if_pos h1]⟩
  · by_cases h2 : s.maxLen < s.lenop.bits.toNat
    · exact .inr (.inl ⟨by omega, h2, by simp only [State.updatePlaintext]; rw [if_neg h1, if_pos h2]⟩)
    · refine .inr (.inr ⟨by omega, by omega, ?_⟩)
      simp only [State.updatePlaintext]
      rw [if_neg h1, if_neg h2]
      rcases takeBytes_cases s.lenop.bits.toNat s.payPort with ⟨h, e⟩ | ⟨bs, rest, hl, h, e⟩
      · exact .inl ⟨h, by rw [e]⟩
      · exact .inr ⟨bs, rest, hl, h, by rw [e]; rfl⟩

/-- What SET_CIPHERTEXT can do (R124). -/
theorem State.updateCiphertext_cases (s : State) :
    (s.lenop.bits.toNat < 32 ∧ s.updateCiphertext = s.fail .short) ∨
    (32 ≤ s.lenop.bits.toNat ∧ s.maxLen < s.lenop.bits.toNat ∧ s.updateCiphertext = s.fail .capacity) ∨
    (32 ≤ s.lenop.bits.toNat ∧ s.lenop.bits.toNat ≤ s.maxLen ∧
      ((s.payPort.length < s.lenop.bits.toNat ∧ s.updateCiphertext = s) ∨
       ∃ bs rest : List Byte, bs.length = s.lenop.bits.toNat ∧ s.payPort = bs ++ rest ∧
        s.updateCiphertext =
          ({ s with
              payPort := rest
              ct := Memory.writeBytes [] 0 bs
              ctExt := s.lenop.bits
              ctLen := s.lenop.bits } : State).done false 1#32)) := by
  by_cases h1 : s.lenop.bits.toNat < 32
  · exact .inl ⟨h1, by simp only [State.updateCiphertext]; rw [if_pos h1]⟩
  · by_cases h2 : s.maxLen < s.lenop.bits.toNat
    · exact .inr (.inl ⟨by omega, h2, by simp only [State.updateCiphertext]; rw [if_neg h1, if_pos h2]⟩)
    · refine .inr (.inr ⟨by omega, by omega, ?_⟩)
      simp only [State.updateCiphertext]
      rw [if_neg h1, if_neg h2]
      rcases takeBytes_cases s.lenop.bits.toNat s.payPort with ⟨h, e⟩ | ⟨bs, rest, hl, h, e⟩
      · exact .inl ⟨h, by rw [e]⟩
      · exact .inr ⟨bs, rest, hl, h, by rw [e]; rfl⟩

/-- What the micro-step UPD can do (R120): one of the five updates. -/
theorem execUpd_cases (s : State) :
    execUpd s = .next s.updateIv ∨ execUpd s = .next s.updateKey ∨ execUpd s = .next s.updatePlaintext ∨
    execUpd s = .next s.updateCiphertext ∨ execUpd s = .next s.updateOther := by
  simp only [execUpd]
  split
  · exact .inl rfl
  · split
    · exact .inr (.inl rfl)
    · split
      · exact .inr (.inr (.inl rfl))
      · split
        · exact .inr (.inr (.inr (.inl rfl)))
        · exact .inr (.inr (.inr (.inr rfl)))

/-! ### The strip step -/

/-- What STRIP can do (R214): strip, or fault at an index PT does not have. -/
theorem State.strip_cases (s : State) :
    ((s.total.bits - 1#32).toNat < s.maxLen ∧
      s.strip = .next { s with
        padcnt := .value (s.pt.byteAt .pt (s.total.bits - 1#32).toNat)
        pt := writeTerminator s.pt s.total.bits (s.pt.byteAt .pt (s.total.bits - 1#32).toNat)
        outlen := .value (s.outlen.bits - (s.pt.byteAt .pt (s.total.bits - 1#32).toNat).setWidth 32) }) ∨
    (s.maxLen ≤ (s.total.bits - 1#32).toNat ∧
      s.strip = .fault (.outsideBuffer .pt (s.total.bits - 1#32).toNat)) := by
  by_cases h : (s.total.bits - 1#32).toNat < s.maxLen
  · exact .inl ⟨h, if_pos h⟩
  · exact .inr ⟨by omega, if_neg h⟩

/-- The terminator keeps the canonical form. -/
theorem writeTerminator_wf {m : Memory} (h : m.wf) (total : Len) (p : Byte) : (writeTerminator m total p).wf := by
  rw [writeTerminator]
  split
  · exact Memory.wf_write h _ _
  · exact h

/-- A read after the terminator write (R216). -/
theorem writeTerminator_lookup (m : Memory) (total : Len) (p : Byte) (a : Nat) :
    (writeTerminator m total p).lookup a =
      if (1 ≤ p.toNat ∧ p.toNat ≤ total.toNat) ∧ total.toNat - p.toNat = a then some Config.term
      else m.lookup a := by
  rw [writeTerminator]
  by_cases h : 1 ≤ p.toNat ∧ p.toNat ≤ total.toNat
  · rw [if_pos h, Memory.lookup_write]; simp [h]
  · rw [if_neg h, if_neg (fun hc => h hc.1)]

/-! ### The block loops -/

/-- The loop of ENCRYPT, last block split off. -/
theorem State.encryptBlocks_succ (n : Nat) (s : State) :
    State.encryptBlocks (n + 1) s = (State.encryptBlocks n s).encryptBlock := by
  induction n generalizing s with
  | zero => rfl
  | succ n ih => rw [State.encryptBlocks, ih, ← State.encryptBlocks]

/-- The loop of DECRYPT, last block split off. -/
theorem State.decryptBlocks_succ (n : Nat) (s : State) :
    State.decryptBlocks (n + 1) s = (State.decryptBlocks n s).decryptBlock := by
  induction n generalizing s with
  | zero => rfl
  | succ n ih => rw [State.decryptBlocks, ih, ← State.decryptBlocks]

/-- An invariant of one pass of ENCRYPT is an invariant of the loop. -/
theorem State.encryptBlocks_induct {P : State → Prop} (step : ∀ s, P s → P s.encryptBlock) :
    ∀ (n : Nat) (s : State), P s → P (State.encryptBlocks n s)
  | 0, _, h => h
  | n + 1, s, h => State.encryptBlocks_induct step n s.encryptBlock (step s h)

/-- An invariant of one pass of DECRYPT is an invariant of the loop. -/
theorem State.decryptBlocks_induct {P : State → Prop} (step : ∀ s, P s → P s.decryptBlock) :
    ∀ (n : Nat) (s : State), P s → P (State.decryptBlocks n s)
  | 0, _, h => h
  | n + 1, s, h => State.decryptBlocks_induct step n s.decryptBlock (step s h)

/-- What ENCRYPT can do (R180): fail PRECOND, fail CAPACITY, or run the loop. -/
theorem State.encryptCall_cases (s : State) :
    ((s.ivLen = 0#32 ∨ s.keyLen = 0#32 ∨ s.ptLen = 0#32) ∧ s.encryptCall = s.fail .precond) ∨
    (¬(s.ivLen = 0#32 ∨ s.keyLen = 0#32 ∨ s.ptLen = 0#32) ∧ s.maxLen < s.ptLen.toNat ∧
      s.encryptCall = s.fail .capacity) ∨
    (¬(s.ivLen = 0#32 ∨ s.keyLen = 0#32 ∨ s.ptLen = 0#32) ∧ s.ptLen.toNat ≤ s.maxLen ∧
      s.encryptCall =
        ({ State.encryptBlocks (blockCount s.ptLen).toNat s.initRun with
            ctLen := (State.encryptBlocks (blockCount s.ptLen).toNat s.initRun).outlen.bits } : State).done
          false (State.encryptBlocks (blockCount s.ptLen).toNat s.initRun).outlen.bits) := by
  by_cases h1 : s.ivLen = 0#32 ∨ s.keyLen = 0#32 ∨ s.ptLen = 0#32
  · exact .inl ⟨h1, if_pos h1⟩
  · by_cases h2 : s.maxLen < s.ptLen.toNat
    · exact .inr (.inl ⟨h1, h2, by rw [State.encryptCall, if_neg h1, if_pos h2]⟩)
    · exact .inr (.inr ⟨h1, by omega, by rw [State.encryptCall, if_neg h1, if_neg h2]⟩)

/-- What DECRYPT can do (R181): fail PRECOND, fail CAPACITY, or run the loop and the strip. -/
theorem State.decryptCall_cases (s : State) :
    ((s.ivLen = 0#32 ∨ s.keyLen = 0#32 ∨ s.ctLen = 0#32) ∧ s.decryptCall = .next (s.fail .precond)) ∨
    (¬(s.ivLen = 0#32 ∨ s.keyLen = 0#32 ∨ s.ctLen = 0#32) ∧ s.maxLen < s.ctLen.toNat ∧
      s.decryptCall = .next (s.fail .capacity)) ∨
    (¬(s.ivLen = 0#32 ∨ s.keyLen = 0#32 ∨ s.ctLen = 0#32) ∧ s.ctLen.toNat ≤ s.maxLen ∧
      ((∃ t, (State.decryptBlocks (blockCount s.ctLen).toNat s.initRun).strip = .next t ∧
          s.decryptCall =
            .next (({ t with ptLen := t.outlen.bits } : State).done
              (decide (t.total.bits.toNat < t.padcnt.bits.toNat)) t.outlen.bits)) ∨
       ∃ r, (State.decryptBlocks (blockCount s.ctLen).toNat s.initRun).strip = .fault r ∧
          s.decryptCall = .fault r)) := by
  by_cases h1 : s.ivLen = 0#32 ∨ s.keyLen = 0#32 ∨ s.ctLen = 0#32
  · exact .inl ⟨h1, if_pos h1⟩
  · by_cases h2 : s.maxLen < s.ctLen.toNat
    · exact .inr (.inl ⟨h1, h2, by rw [State.decryptCall, if_neg h1, if_pos h2]⟩)
    · refine .inr (.inr ⟨h1, by omega, ?_⟩)
      rcases State.strip_cases (State.decryptBlocks (blockCount s.ctLen).toNat s.initRun) with ⟨_, e⟩ | ⟨_, e⟩
      · exact .inl ⟨_, e, by rw [State.decryptCall, if_neg h1, if_neg h2, e]⟩
      · exact .inr ⟨_, e, by rw [State.decryptCall, if_neg h1, if_neg h2, e]⟩

/-! ### Reset -/

theorem State.payloadAfterReset_of_upd {s : State} (h : s.phase = 1#5) :
    s.payloadAfterReset = s.payPort.drop (payloadBytes s.maxLen s.op.bits s.lenop.bits) := if_pos h

theorem State.payloadAfterReset_of_ne_upd {s : State} (h : s.phase ≠ 1#5) : s.payloadAfterReset = s.payPort := if_neg h

end Sys2Proof.Machine
end

