-- ==== Sys2Proof/Laws/Blocks.lean ====
section
/-! SUPPORT. The block copies when the block lies inside the buffer, and the fields of a state after one pass of
ENCRYPT or DECRYPT. -/

namespace Sys2Proof.Machine

/-! ### Copies -/

/-- E_COPYIN of a block that PT has (R188). -/
theorem execECopyin_next {s : State} (h : s.blockInBuffer s.blockIndex = true) :
    execECopyin s =
      .next { s with blk := .value (s.pt.readBlock .pt s.blockIndex.toNat), phase := 6#5 } := if_pos h

/-- E_COPYOUT of a block that CT has (R194). -/
theorem execECopyout_next {s : State} (h : s.blockInBuffer s.blockIndex = true) :
    execECopyout s = .next { s with
      ct := s.ct.writeBytes s.blockIndex.toNat s.out.bits.toList
      ctExt := s.blockIndex + 32#32
      phase := 19#5 } := if_pos h

/-- D_COPYIN of a block that CT has (R196). -/
theorem execDCopyin_next {s : State} (h : s.blockInBuffer s.blockIndex = true) :
    execDCopyin s =
      .next { s with blk := .value (s.ct.readBlock .ct s.blockIndex.toNat), phase := 13#5 } := if_pos h

/-- D_COPYOUT of a block that PT has (R201). -/
theorem execDCopyout_next {s : State} (h : s.blockInBuffer s.blockIndex = true) :
    execDCopyout s = .next { s with
      pt := s.pt.writeBytes s.blockIndex.toNat s.out.bits.toList
      ptExt := s.blockIndex + 32#32
      phase := 18#5 } := if_pos h

/-- A block written is read back byte by byte. -/
theorem Memory.lookup_writeBlock (m : Memory) (a : Nat) (b : Block) (j : Fin 32) :
    (m.writeBytes a b.toList).lookup (a + j.val) = some b[j] := by
  rw [Memory.lookup_writeBytes, if_pos ⟨by omega, by simp⟩]
  simp

/-- A block written leaves every other byte alone. -/
theorem Memory.lookup_writeBlock_of_outside (m : Memory) (a : Nat) (b : Block) {k : Nat}
    (h : k < a ∨ a + 32 ≤ k) : (m.writeBytes a b.toList).lookup k = m.lookup k := by
  rw [Memory.lookup_writeBytes, if_neg (by simp; omega)]

/-! ### One pass of ENCRYPT -/

/-- What one pass of ENCRYPT leaves alone. -/
theorem State.encryptBlock_frame (s : State) :
    s.encryptBlock = { s with
      blk := s.encryptBlock.blk, fed := s.encryptBlock.fed, keyround := s.encryptBlock.keyround
      matrix := s.encryptBlock.matrix, out := s.encryptBlock.out, ct := s.encryptBlock.ct
      ctExt := s.encryptBlock.ctExt, outlen := s.encryptBlock.outlen, blkcnt := s.encryptBlock.blkcnt } := by
  simp only [State.encryptBlock]

theorem State.encryptBlock_fed (s : State) : s.encryptBlock.fed =
    .value (xorBlock (s.pt.readBlock .pt s.blockIndex.toNat) s.keyround.bits) := by
  simp only [State.encryptBlock]

theorem State.encryptBlock_keyround (s : State) : s.encryptBlock.keyround = s.encryptBlock.fed := by
  simp only [State.encryptBlock]

theorem State.encryptBlock_out (s : State) : s.encryptBlock.out =
    .value (exportMatrix (permute (loadMatrix s.encryptBlock.fed.bits))) := by
  simp only [State.encryptBlock, Reg.value_bits]

theorem State.encryptBlock_ct (s : State) : s.encryptBlock.ct =
    s.ct.writeBytes s.blockIndex.toNat s.encryptBlock.out.bits.toList := by
  simp only [State.encryptBlock, Reg.value_bits]

theorem State.encryptBlock_ctExt (s : State) : s.encryptBlock.ctExt = s.blockIndex + 32#32 := by
  simp only [State.encryptBlock]

theorem State.encryptBlock_outlen (s : State) : s.encryptBlock.outlen = .value (s.outlen.bits + 32#32) := by
  simp only [State.encryptBlock]

theorem State.encryptBlock_blkcnt (s : State) : s.encryptBlock.blkcnt = .value (s.blkcnt.bits + 1#32) := by
  simp only [State.encryptBlock]

/-! ### One pass of DECRYPT -/

/-- What one pass of DECRYPT leaves alone. -/
theorem State.decryptBlock_frame (s : State) :
    s.decryptBlock = { s with
      blk := s.decryptBlock.blk, fed := s.decryptBlock.fed, keyround := s.decryptBlock.keyround
      matrix := s.decryptBlock.matrix, out := s.decryptBlock.out, pt := s.decryptBlock.pt
      ptExt := s.decryptBlock.ptExt, outlen := s.decryptBlock.outlen, blkcnt := s.decryptBlock.blkcnt } := by
  simp only [State.decryptBlock]

theorem State.decryptBlock_fed (s : State) : s.decryptBlock.fed =
    .value (exportMatrix (invPermute (loadMatrix (s.ct.readBlock .ct s.blockIndex.toNat)))) := by
  simp only [State.decryptBlock]

theorem State.decryptBlock_out (s : State) : s.decryptBlock.out =
    .value (xorBlock s.decryptBlock.fed.bits s.keyround.bits) := by
  simp only [State.decryptBlock, Reg.value_bits]

/-- CHAIN_DEC with DEC_CHAIN = XOR_FED (R144). -/
theorem State.decryptBlock_keyround (s : State) : s.decryptBlock.keyround =
    .value (xorBlock s.keyround.bits s.decryptBlock.fed.bits) := by
  simp only [State.decryptBlock, Reg.value_bits, chainDec, Config.decChain]

theorem State.decryptBlock_pt (s : State) : s.decryptBlock.pt =
    s.pt.writeBytes s.blockIndex.toNat s.decryptBlock.out.bits.toList := by
  simp only [State.decryptBlock, Reg.value_bits]

theorem State.decryptBlock_ptExt (s : State) : s.decryptBlock.ptExt = s.blockIndex + 32#32 := by
  simp only [State.decryptBlock]

theorem State.decryptBlock_outlen (s : State) : s.decryptBlock.outlen = .value (s.outlen.bits + 32#32) := by
  simp only [State.decryptBlock]

theorem State.decryptBlock_blkcnt (s : State) : s.decryptBlock.blkcnt = .value (s.blkcnt.bits + 1#32) := by
  simp only [State.decryptBlock]

end Sys2Proof.Machine
end

