-- ==== Sys2Proof/Laws/PerInstr.lean ====
section
/-! SUPPORT. Statements made for each instruction, one lemma for each constructor of Instr. Family RoundTrip:
the decoder reads the instruction back from its encoding. -/

namespace Sys2Proof.Laws.RoundTrip

/-- Decoding the encoding of `i` gives `i`. -/
def Statement (i : Instr) : Prop := decode (encode i) = .ok i

theorem opField_headerOf (op : BitVec 4) (len : Len) : opField (headerOf op len) = op := by
  ext k hk
  rw [opField, headerOf, BitVec.getElem_extractLsb', BitVec.getLsbD_append, if_neg (by omega),
    Nat.add_sub_cancel_left, BitVec.getLsbD_eq_getElem hk]

theorem lenField_headerOf (op : BitVec 4) (len : Len) : lenField (headerOf op len) = len := by
  ext k hk
  rw [lenField, headerOf, BitVec.getElem_extractLsb', BitVec.getLsbD_append, if_pos (by omega),
    Nat.zero_add, BitVec.getLsbD_eq_getElem hk]

/-- Decoding a header is decoding its `op` with its `len` beside it. -/
theorem decode_header (op : BitVec 4) (len : Len) :
    decode (.header (headerOf op len)) = .ok (decodeOp op len) := by
  rw [decode, decodeHeader, opField_headerOf, lenField_headerOf]

theorem setIv (len : Len) : Statement (.setIv len) := decode_header _ _
theorem setKey (len : Len) : Statement (.setKey len) := decode_header _ _
theorem setPlaintext (len : Len) : Statement (.setPlaintext len) := decode_header _ _
theorem setCiphertext (len : Len) : Statement (.setCiphertext len) := decode_header _ _
theorem updOther (mm : BitVec 2) (len : Len) : Statement (.updOther mm len) := by
  refine (decode_header _ _).trans ?_
  have h : mm = 0#2 ∨ mm = 1#2 ∨ mm = 2#2 ∨ mm = 3#2 := by revert mm; decide
  rcases h with rfl | rfl | rfl | rfl <;> rfl
theorem encrypt (len : Len) : Statement (.encrypt len) := decode_header _ _
theorem decrypt (len : Len) : Statement (.decrypt len) := decode_header _ _
theorem runRsvdLow (sel : BitVec 1) (len : Len) : Statement (.runRsvdLow sel len) := by
  refine (decode_header _ _).trans ?_
  have h : sel = 0#1 ∨ sel = 1#1 := by revert sel; decide
  rcases h with rfl | rfl <;> rfl
theorem runRsvdHigh (sel : BitVec 2) (len : Len) : Statement (.runRsvdHigh sel len) := by
  refine (decode_header _ _).trans ?_
  have h : sel = 0#2 ∨ sel = 1#2 ∨ sel = 2#2 ∨ sel = 3#2 := by revert sel; decide
  rcases h with rfl | rfl | rfl | rfl <;> rfl
theorem idle : Statement .idle := rfl
theorem upd : Statement .upd := rfl
theorem rCheck : Statement .rCheck := rfl
theorem rInit : Statement .rInit := rfl
theorem rTest : Statement .rTest := rfl
theorem eCopyin : Statement .eCopyin := rfl
theorem eXor : Statement .eXor := rfl
theorem eChain : Statement .eChain := rfl
theorem eLoad : Statement .eLoad := rfl
theorem ePerm : Statement .ePerm := rfl
theorem eExport : Statement .eExport := rfl
theorem eCopyout : Statement .eCopyout := rfl
theorem dCopyin : Statement .dCopyin := rfl
theorem dLoad : Statement .dLoad := rfl
theorem dInvperm : Statement .dInvperm := rfl
theorem dExport : Statement .dExport := rfl
theorem dXor : Statement .dXor := rfl
theorem dCopyout : Statement .dCopyout := rfl
theorem dChain : Statement .dChain := rfl
theorem rNext : Statement .rNext := rfl
theorem dStrip : Statement .dStrip := rfl
theorem rDone : Statement .rDone := rfl

end Sys2Proof.Laws.RoundTrip
end

