-- ==== Sys2Proof/Laws/Step.lean ====
section
/-! SUPPORT. What one step can do: one lemma for `fetch` and one for `step`, cited instead of unfolding them. -/

namespace Sys2Proof.Machine

/-- What `fetch` can answer: a header taken off the command port (command level, IDLE), or the content of
PHASE. -/
theorem State.fetch_cases (s : State) :
    (∃ h rest, s.phase = 0#5 ∧ s.level = .command ∧ s.cmdPort = h :: rest ∧
      s.fetch = (.header h, { s with cmdPort := rest })) ∨
    ((s.phase ≠ 0#5 ∨ s.level = .microstep ∨ s.cmdPort = []) ∧ s.fetch = (.phase s.phase, s)) := by
  by_cases h : s.phase = 0#5 ∧ s.level = .command
  · cases hp : s.cmdPort with
    | nil => exact .inr ⟨.inr (.inr rfl), by rw [State.fetch, if_pos h, hp]⟩
    | cons x rest => exact .inl ⟨x, rest, h.1, h.2, rfl, by rw [State.fetch, if_pos h, hp]⟩
  · refine .inr ⟨?_, if_neg h⟩
    by_cases hph : s.phase = 0#5
    · cases hl : s.level with
      | command => exact absurd ⟨hph, hl⟩ h
      | microstep => exact .inr (.inl rfl)
    · exact .inl hph

/-- What `step` can do: reset, a command, a micro-step, or the refusal of an unused PHASE code. -/
theorem step_cases (s : State) :
    (s.resetIn = true ∧ step s = .next s.toReset) ∨
    (s.resetIn = false ∧ ∃ h rest, s.phase = 0#5 ∧ s.level = .command ∧ s.cmdPort = h :: rest ∧
      step s = exec (decodeHeader h) { s with cmdPort := rest }) ∨
    (s.resetIn = false ∧ (s.phase ≠ 0#5 ∨ s.level = .microstep ∨ s.cmdPort = []) ∧
      ((∃ i, decodePhase s.phase = .ok i ∧ step s = exec i s) ∨
       ∃ e, decodePhase s.phase = .error e ∧ step s = .refused (.unusedPhase s.phase))) := by
  by_cases hr : s.resetIn = true
  · exact .inl ⟨hr, by rw [step, if_pos hr]⟩
  · have hr' : s.resetIn = false := by simpa using hr
    right
    rcases s.fetch_cases with ⟨h, rest, h1, h2, h3, hf⟩ | ⟨h, hf⟩
    · exact .inl ⟨hr', h, rest, h1, h2, h3, by rw [step, if_neg hr, hf]; rfl⟩
    · refine .inr ⟨hr', h, ?_⟩
      cases hd : decodePhase s.phase with
      | ok i => exact .inl ⟨i, rfl, by rw [step, if_neg hr, hf]; simp only [decode, hd]⟩
      | error e => exact .inr ⟨e, rfl, by rw [step, if_neg hr, hf]; simp only [decode, hd]⟩

end Sys2Proof.Machine
end

