-- ==== Sys2Proof/Laws/Values.lean ====
section
/-! SUPPORT. States that agree in every value held (`State.SameValues`): the fields they share, and reflexivity. -/

namespace Sys2Proof.Machine

theorem Reg.SameValue.refl {α : Type} (r : Reg α) : r.SameValue r := ⟨rfl, fun _ => rfl⟩

theorem State.SameValues.refl (s : State) : s.SameValues s := by
  constructor <;> first | rfl | exact Reg.SameValue.refl _

theorem State.SameValues.keyLen_eq {s t : State} (h : s.SameValues t) : t.keyLen = s.keyLen := by rw [h.rest]
theorem State.SameValues.ivLen_eq {s t : State} (h : s.SameValues t) : t.ivLen = s.ivLen := by rw [h.rest]
theorem State.SameValues.pt_eq {s t : State} (h : s.SameValues t) : t.pt = s.pt := by rw [h.rest]
theorem State.SameValues.ptLen_eq {s t : State} (h : s.SameValues t) : t.ptLen = s.ptLen := by rw [h.rest]
theorem State.SameValues.ptExt_eq {s t : State} (h : s.SameValues t) : t.ptExt = s.ptExt := by rw [h.rest]
theorem State.SameValues.ct_eq {s t : State} (h : s.SameValues t) : t.ct = s.ct := by rw [h.rest]
theorem State.SameValues.ctLen_eq {s t : State} (h : s.SameValues t) : t.ctLen = s.ctLen := by rw [h.rest]
theorem State.SameValues.ctExt_eq {s t : State} (h : s.SameValues t) : t.ctExt = s.ctExt := by rw [h.rest]
theorem State.SameValues.phase_eq {s t : State} (h : s.SameValues t) : t.phase = s.phase := by rw [h.rest]
theorem State.SameValues.status_eq {s t : State} (h : s.SameValues t) : t.status = s.status := by rw [h.rest]
theorem State.SameValues.result_eq {s t : State} (h : s.SameValues t) : t.result = s.result := by rw [h.rest]
theorem State.SameValues.cmdPort_eq {s t : State} (h : s.SameValues t) : t.cmdPort = s.cmdPort := by rw [h.rest]
theorem State.SameValues.payPort_eq {s t : State} (h : s.SameValues t) : t.payPort = s.payPort := by rw [h.rest]
theorem State.SameValues.respPort_eq {s t : State} (h : s.SameValues t) : t.respPort = s.respPort := by rw [h.rest]
theorem State.SameValues.resetIn_eq {s t : State} (h : s.SameValues t) : t.resetIn = s.resetIn := by rw [h.rest]
theorem State.SameValues.storageFault_eq {s t : State} (h : s.SameValues t) : t.storageFault = s.storageFault := by rw [h.rest]
theorem State.SameValues.maxLen_eq {s t : State} (h : s.SameValues t) : t.maxLen = s.maxLen := by rw [h.rest]
theorem State.SameValues.level_eq {s t : State} (h : s.SameValues t) : t.level = s.level := by rw [h.rest]

end Sys2Proof.Machine
end

