-- ==== Sys2Proof/Tests/Slice0.lean ====
section
/-! SUPPORT. Tests of the model. The expected values come from the spec: the vectors of 95_test_vectors.md (named
by their ids), the examples in the rules, or the bits of opcode_table.json written out by hand. -/

namespace Sys2Proof.Tests

open Sys2Proof.Machine

/-! ### Helpers -/

/-- A block from its 64 hex digits, byte 0 first (R12). -/
def hex (n : Nat) : Block := Vector.ofFn fun k => BitVec.ofNat 8 (n / 256 ^ (31 - k.val))

/-- A memory that holds `bs` from index 0 on. -/
def cells (bs : List Byte) : Memory := bs.zipIdx.map fun p => (p.2, p.1)

/-- 32 bytes of one value. -/
def all32 (b : Byte) : Block := Vector.ofFn fun _ => b

/-- A field of the next state, where there is one. -/
def got {α : Type} (f : State → α) : Host.Outcome State Fault Refusal → Option α
  | .next t => some (f t)
  | _ => none

theorem next_of_got {α : Type} {f : State → α} {o : Host.Outcome State Fault Refusal} {v : α}
    (h : got f o = some v) : ∃ t, o = .next t ∧ f t = v := by
  cases o <;> simp_all [got]

theorem encrypt_answers (len : Len) (s : State) : ∃ t, exec (.encrypt len) s = .next t := ⟨_, rfl⟩

/-- KEY of vector KS1. -/
def keyA : Block := hex 0x000102030405060708090a0b0c0d0e0f101112131415161718191a1b1c1d1e1f
/-- IV of vector KS1. -/
def ivA : Block := hex 0x5a5b5e636a737e8b9aabbed3ea031e3b5a7b9ec3ea133e6b9acbfe336aa3de1b
/-- KEY xor IV, result of KS1. -/
def k0A : Block := hex 0x5a5a5c606e76788c92a2b4d8e60e10344a6a8cd0fe06287c82d2e42876bec004
/-- The plaintext block of vector KS8. -/
def blkA : Block := hex 0x48454c4c4f2c2056534520454e47494e45210e0e0e0e0e0e0e0e0e0e0e0e0e0e
/-- FED of vector KS8. -/
def fedA : Block := hex 0x121f102c215a58dac1e7949da849597a0f4b82def00826728cdcea2678b0ce0a
/-- The export of vector M3. -/
def ctA : Block := hex 0x722608f0de824b0f0aceb07826eadc8cda585a212c101f127a5949a89d94e7c1

/-- An engine with MAX_LEN = 96 after reset. -/
def fresh : State := State.resetWith 96

/-- KEY and IV of KS1 set. -/
def keyed : State :=
  { fresh with key := ⟨keyA, true⟩, keyLen := 32#32, iv := ⟨ivA, true⟩, ivLen := 32#32 }

/-- Start of B3: the block of KS8 and eight bytes more. -/
def encReady : State :=
  { keyed with pt := cells (blkA.toList ++ List.replicate 8 0x44#8), ptLen := 40#32, ptExt := 40#32 }

/-- Start of B4. -/
def decReady : State := { keyed with ct := cells ctA.toList, ctLen := 32#32, ctExt := 32#32 }

/-- A command with code `op` in progress at PHASE `p`. -/
def at' (p : PhaseCode) (op : BitVec 4) (s : State) : State :=
  { s with phase := p, op := ⟨op, true⟩, lenop := ⟨0#32, true⟩ }

/-- In the loop of a command over one block, block `n` next. -/
def inLoop (p : PhaseCode) (op : BitVec 4) (n : Len) (s : State) : State :=
  { at' p op s with
    keyround := ⟨k0A, true⟩, matrix := ⟨zeroMatrix, true⟩, nmemb := ⟨1#32, true⟩, total := ⟨32#32, true⟩,
    blkcnt := ⟨n, true⟩, outlen := ⟨32#32 * n, true⟩ }

/-- The strip vectors T1 to T6: block zero but for CT[8] = p, KEY = IV = 0. -/
def stripReady (p : Byte) : State :=
  { fresh with
    key := ⟨all32 0#8, true⟩, keyLen := 32#32, iv := ⟨all32 0#8, true⟩, ivLen := 32#32
    ct := cells ((all32 0#8).toList.set 8 p), ctLen := 32#32, ctExt := 32#32 }

/-! ### Well-formedness: an ill-formed term for each check -/

theorem test_wf_set_iv_of_31_bytes : Packet.wellFormed 96 ⟨0x000000000#36, List.replicate 31 0#8⟩ = false := by decide
theorem test_wf_set_iv_of_32_bytes : Packet.wellFormed 96 ⟨0x0FFFFFFFF#36, List.replicate 32 0#8⟩ = true := by decide
theorem test_wf_text_of_wrong_count : Packet.wellFormed 96 ⟨0x200000021#36, List.replicate 32 0#8⟩ = false := by decide
theorem test_wf_rejected_text_takes_nothing : Packet.wellFormed 96 ⟨0x20000001F#36, List.replicate 31 0#8⟩ = false ∧
    Packet.wellFormed 96 ⟨0x20000001F#36, []⟩ = true ∧ Packet.wellFormed 96 ⟨0x200000061#36, []⟩ = true := by decide
theorem test_wf_encrypt_with_payload : Packet.wellFormed 96 ⟨0x800000000#36, [0#8]⟩ = false := by decide
theorem test_wf_upd_other_range : (Line.updOther 3).wellFormed = false ∧ (Line.updOther 8).wellFormed = false := by decide
theorem test_wf_run_rsvd_range : (Line.runRsvd 9).wellFormed = false ∧ (Line.runRsvd 16).wellFormed = false := by decide
theorem test_wf_text_too_long_for_len (n : Nat) (h : 2 ^ 32 ≤ n) :
    (Line.setPlaintext (List.replicate n 0#8)).wellFormed = false ∧
    (Line.setCiphertext (List.replicate n 0#8)).wellFormed = false := by
  simp [Line.wellFormed]; omega
theorem test_wf_max_len_range : maxLenLegal 31 = false ∧ maxLenLegal 32 = true ∧ maxLenLegal (2 ^ 31) = true ∧
    maxLenLegal (2 ^ 31 + 1) = false := by decide

/-! ### Decoding: every row of the table, its bits written out -/

theorem test_decode_updates :
    decode (.header 0b000011111111111111111111111111111111#36) = .ok (.setIv 0xFFFFFFFF#32) ∧
    decode (.header 0b000100000000000000000000000000000001#36) = .ok (.setKey 1#32) ∧
    decode (.header 0b001000000000000000000000000001000000#36) = .ok (.setPlaintext 64#32) ∧
    decode (.header 0b001100000000000000000000000001100000#36) = .ok (.setCiphertext 96#32) ∧
    decode (.header 0b010000000000000000000000000000000000#36) = .ok (.updOther 0b00#2 0#32) ∧
    decode (.header 0b011100000000000000000000000000000000#36) = .ok (.updOther 0b11#2 0#32) := by decide

theorem test_decode_runs :
    decode (.header 0b100000010010001101000101011001111000#36) = .ok (.encrypt 0x12345678#32) ∧
    decode (.header 0b100100000000000000000000000000000000#36) = .ok (.decrypt 0#32) ∧
    decode (.header 0b101000000000000000000000000000000000#36) = .ok (.runRsvdLow 0b0#1 0#32) ∧
    decode (.header 0b101100000000000000000000000000000000#36) = .ok (.runRsvdLow 0b1#1 0#32) ∧
    decode (.header 0b110000000000000000000000000000000000#36) = .ok (.runRsvdHigh 0b00#2 0#32) ∧
    decode (.header 0b111100000000000000000000000000000000#36) = .ok (.runRsvdHigh 0b11#2 0#32) := by decide

theorem test_decode_phases :
    decode (.phase 0b00000#5) = .ok .idle ∧ decode (.phase 0b00001#5) = .ok .upd ∧
    decode (.phase 0b00010#5) = .ok .rCheck ∧ decode (.phase 0b00011#5) = .ok .rInit ∧
    decode (.phase 0b00100#5) = .ok .rTest ∧ decode (.phase 0b00101#5) = .ok .eCopyin ∧
    decode (.phase 0b00110#5) = .ok .eXor ∧ decode (.phase 0b00111#5) = .ok .eChain ∧
    decode (.phase 0b01000#5) = .ok .eLoad ∧ decode (.phase 0b01001#5) = .ok .ePerm ∧
    decode (.phase 0b01010#5) = .ok .eExport ∧ decode (.phase 0b01011#5) = .ok .eCopyout ∧
    decode (.phase 0b01100#5) = .ok .dCopyin ∧ decode (.phase 0b01101#5) = .ok .dLoad ∧
    decode (.phase 0b01110#5) = .ok .dInvperm ∧ decode (.phase 0b01111#5) = .ok .dExport ∧
    decode (.phase 0b10000#5) = .ok .dXor ∧ decode (.phase 0b10001#5) = .ok .dCopyout ∧
    decode (.phase 0b10010#5) = .ok .dChain ∧ decode (.phase 0b10011#5) = .ok .rNext ∧
    decode (.phase 0b10100#5) = .ok .dStrip ∧ decode (.phase 0b10101#5) = .ok .rDone := by decide

theorem test_decode_unused_phases :
    decode (.phase 0b10110#5) = .error (.unusedPhase 22#5) ∧
    decode (.phase 0b11111#5) = .error (.unusedPhase 31#5) := by decide

theorem test_decode_table_words :
    decodeTableWord 40 0x812345678 = some (.encrypt 0x12345678#32) ∧ decodeTableWord 8 0x14 = some .dStrip ∧
    decodeTableWord 40 0x1000000000 = none ∧ decodeTableWord 8 0x20 = none ∧ decodeTableWord 8 0x16 = none ∧
    decodeTableWord 48 0 = none := by decide

/-! ### One command at a time -/

/-- C1v, C2v: a second SET_IV overwrites all 32 bytes. -/
theorem test_set_iv :
    got (fun t => (t.iv.bits[0], t.iv.bits[31], t.ivLen, t.statusWord, t.respPort))
      (exec (.setIv 0#32) { keyed with payPort := (all32 0xff#8).toList }) =
    some (0xff#8, 0xff#8, 32#32, 0x2#32, [⟨true, 1#32⟩]) := by decide

/-- C3v: KEY[k] = k. -/
theorem test_set_key :
    got (fun t => (t.key.bits[1], t.key.bits[30], t.keyLen, t.ivLen, t.payPort.length))
      (exec (.setKey 7#32) { fresh with payPort := keyA.toList ++ [0x99#8] }) =
    some (1#8, 30#8, 32#32, 0#32, 1) := by decide

/-- The VERIFY arm of R122: STATUS 0x0C, the length unchanged. -/
theorem test_set_key_verify :
    got (fun t => (t.keyLen, t.statusWord, t.result))
      (exec (.setKey 0#32) { fresh with payPort := keyA.toList, storageFault := some ivA }) =
    some (0#32, 0x0C#32, 0#32) := by decide

/-- C7v: 33 bytes over 64 bytes; PT[33] holds no value. -/
theorem test_set_plaintext_replaces :
    got (fun t => (t.ptLen, t.ptExt, t.pt.lookup 32, t.pt.lookup 33))
      (exec (.setPlaintext 33#32) { fresh with
        pt := cells (List.replicate 64 0x41#8), ptLen := 64#32, ptExt := 64#32
        payPort := (all32 0#8).toList ++ [0x5a#8, 0x77#8] }) =
    some (33#32, 33#32, some 0x5a#8, none) := by decide

/-- C5v, C6v: SHORT, STATUS 0x8, and no payload is taken. -/
theorem test_set_plaintext_short :
    got (fun t => (t.ptLen, t.statusWord, t.result, t.payPort.length))
      (exec (.setPlaintext 31#32) { encReady with payPort := List.replicate 31 0#8 }) =
    some (40#32, 0x8#32, 0#32, 31) := by decide

/-- C10v. -/
theorem test_set_ciphertext :
    got (fun t => (t.ctLen, t.ctExt, t.ct.lookup 31, t.ct.lookup 32))
      (exec (.setCiphertext 32#32) { fresh with payPort := (all32 0x41#8).toList }) =
    some (32#32, 32#32, some 0x41#8, none) := by decide

/-- C8v for CT: MAX_LEN + 1, STATUS 0x18. -/
theorem test_set_ciphertext_capacity :
    got (fun t => (t.ctLen, t.statusWord)) (exec (.setCiphertext 97#32) decReady) =
    some (32#32, 0x18#32) := by decide

/-- C12v. -/
theorem test_upd_other :
    got (fun t => (t.statusWord, t.result, t.op.bits, t.ivLen)) (exec (.updOther 3#2 0#32) keyed) =
    some (0x10#32, 0#32, 0x7#4, 32#32) := by decide

/-- B10: BADCMD before PRECOND, on a reset engine. -/
theorem test_run_rsvd_low :
    got (fun t => (t.statusWord, t.result)) (exec (.runRsvdLow 0#1 0#32) fresh) = some (0x14#32, 0xFFFFFFFF#32) := by decide
theorem test_run_rsvd_high :
    got (fun t => (t.statusWord, t.respPort)) (exec (.runRsvdHigh 0#2 0#32) fresh) =
    some (0x14#32, [⟨false, 0xFFFFFFFF#32⟩]) := by decide

/-- B3. -/
theorem test_encrypt_one_block :
    got (fun t => (decide (∀ j : Fin 32, t.ct.lookup j.val = some ctA[j] ∧ t.keyround.bits[j] = fedA[j]),
        t.ct.lookup 32, t.ctLen, t.ctExt, t.respPort))
      (exec (.encrypt 0x12345678#32) encReady) =
    some (true, none, 32#32, 32#32, [⟨true, 32#32⟩]) := by decide

/-- B5: PT_LEN = 18, no block, KEYROUND = KEY xor IV. -/
theorem test_encrypt_no_block :
    got (fun t => (t.ct, t.ctLen, t.respPort, t.keyround.bits[31]))
      (exec (.encrypt 0#32) { encReady with ptLen := 18#32, ct := cells [1#8], ctLen := 32#32, ctExt := 1#32 }) =
    some ([], 0#32, [⟨true, 0#32⟩], 0x04#8) := by decide

/-- B4: PT[18] overwritten, KEYROUND[18] not. -/
theorem test_decrypt_one_block :
    got (fun t => (decide (∀ j : Fin 32, t.pt.lookup j.val = some (if j.val = 18 then 0#8 else blkA[j])),
        t.keyround.bits[18], t.ptLen, t.ptExt, t.statusWord))
      (exec (.decrypt 0#32) decReady) =
    some (true, 0x0e#8, 18#32, 32#32, 0x2#32) := by decide

/-- T5: p = 33, no terminator, the length wraps to the sentinel's value, STATUS 0x22. -/
theorem test_decrypt_underflow :
    got (fun t => (t.pt.lookup 31, t.pt.lookup 0, t.ptLen, t.statusWord, t.respPort))
      (exec (.decrypt 0#32) (stripReady 0x21#8)) =
    some (some 0x21#8, some 0#8, 0xFFFFFFFF#32, 0x22#32, [⟨true, 0xFFFFFFFF#32⟩]) := by decide

/-! ### The micro-steps: the trace P5 (encrypt) and vector B4 (decrypt) -/

/-- P5 line 0, with the STATUS of a success before it: 0x3. -/
theorem test_idle_accepts :
    got (fun t => (t.phase, t.op.bits, t.lenop.bits, t.cmdPort, t.statusWord))
      (exec .idle { encReady with cmdPort := [0x800000005#36, 0x900000000#36], status := ⟨true, .none, false⟩ }) =
    some (2#5, 0x8#4, 5#32, [0x900000000#36], 0x3#32) := by decide

theorem test_upd_set_key :
    got (fun t => (t.keyLen, t.phase, t.result, t.ivLen)) (exec .upd (at' 1#5 0x1#4 { fresh with payPort := keyA.toList })) =
    some (32#32, 0#5, 1#32, 0#32) := by decide

/-- R103 item 2: too few bytes, BUSY stays 1. -/
theorem test_upd_waits :
    got (fun t => (t.phase, t.payPort.length, t.busy, t.respPort))
      (exec .upd (at' 1#5 0x0#4 { fresh with payPort := List.replicate 31 0#8 })) = some (1#5, 31, true, []) := by decide

/-- B9: PRECOND before CAPACITY. -/
theorem test_r_check_order :
    got (fun t => (t.phase, t.statusWord)) (exec .rCheck (at' 2#5 0x8#4 { keyed with ivLen := 0#32, ptLen := 0xFFFFFFDF#32 })) =
    some (0#5, 0x4#32) := by decide

/-- B8. -/
theorem test_r_check_capacity :
    got (fun t => (t.phase, t.statusWord, t.result)) (exec .rCheck (at' 2#5 0x8#4 { keyed with ptLen := 0xFFFFFFDF#32 })) =
    some (0#5, 0x18#32, 0xFFFFFFFF#32) := by decide

/-- P5 line 2. -/
theorem test_r_init :
    got (fun t => (decide (∀ j : Fin 32, t.keyround.bits[j] = k0A[j]), t.nmemb.bits, t.total.bits, t.ct.length, t.ctExt, t.ptExt))
      (exec .rInit (at' 3#5 0x8#4 { encReady with ct := cells [1#8], ctExt := 1#32 })) =
    some (true, 1#32, 32#32, 0, 0#32, 40#32) := by decide

/-- P5 lines 3 and 12; D_STRIP for DECRYPT. -/
theorem test_r_test :
    got (·.phase) (exec .rTest (inLoop 4#5 0x8#4 0#32 encReady)) = some 5#5 ∧
    got (·.phase) (exec .rTest (inLoop 4#5 0x8#4 1#32 encReady)) = some 21#5 ∧
    got (·.phase) (exec .rTest (inLoop 4#5 0x9#4 0#32 decReady)) = some 12#5 ∧
    got (·.phase) (exec .rTest (inLoop 4#5 0x9#4 1#32 decReady)) = some 20#5 := by decide

theorem test_e_copyin :
    got (fun t => (decide (∀ j : Fin 32, t.blk.bits[j] = blkA[j]), t.phase)) (exec .eCopyin (inLoop 5#5 0x8#4 0#32 encReady)) =
    some (true, 6#5) := by decide

/-- KS8. -/
theorem test_e_xor :
    got (fun t => (decide (∀ j : Fin 32, t.fed.bits[j] = fedA[j]), t.phase))
      (exec .eXor { inLoop 6#5 0x8#4 0#32 encReady with blk := ⟨blkA, true⟩ }) = some (true, 7#5) := by decide

theorem test_e_chain :
    got (fun t => (t.keyround.bits[0], t.keyround.bits[31], t.phase))
      (exec .eChain { inLoop 7#5 0x8#4 0#32 encReady with fed := ⟨fedA, true⟩ }) = some (0x12#8, 0x0a#8, 8#5) := by decide

/-- M3, row LOAD: 0xDA is −38; R160: byte 13 is MATRIX[1][5]. -/
theorem test_e_load :
    got (fun t => (t.matrix.bits[0][7].toInt, t.matrix.bits[1][5], t.phase))
      (exec .eLoad { inLoop 8#5 0x8#4 0#32 encReady with fed := ⟨fedA, true⟩ }) =
    some (-38, 0x49#32, 9#5) := by decide

/-- M2, row group 3: 17161514… in row 0, the rows 2, 3, 0, 1. -/
theorem test_e_perm :
    got (fun t => (t.matrix.bits[0][0], t.matrix.bits[1][0], t.matrix.bits[2][7], t.matrix.bits[3][7], t.phase))
      (exec .ePerm { inLoop 9#5 0x8#4 0#32 encReady with matrix := ⟨loadMatrix keyA, true⟩ }) =
    some (0x17#32, 0x1f#32, 0x00#32, 0x08#32, 10#5) := by decide

/-- R167: −100 exports as 0x9C. -/
theorem test_e_export :
    got (fun t => (t.out.bits[5], t.out.bits[6], t.phase))
      (exec .eExport { inLoop 10#5 0x8#4 0#32 encReady with
        matrix := ⟨matrixOf fun r c => if r = 0 ∧ c = 5 then 0xFFFFFF9C#32 else 0x141#32, true⟩ }) =
    some (0x9C#8, 0x41#8, 11#5) := by decide

theorem test_e_copyout :
    got (fun t => (t.ct.lookup 0, t.ct.lookup 63, t.ct.lookup 95, t.ctExt, t.phase))
      (exec .eCopyout { inLoop 11#5 0x8#4 2#32 encReady with
        ct := cells (List.replicate 64 0x55#8), ctExt := 64#32, out := ⟨ctA, true⟩ }) =
    some (some 0x55#8, some 0x55#8, some 0xc1#8, 96#32, 19#5) := by decide

theorem test_d_copyin :
    got (fun t => (t.blk.bits[0], t.blk.bits[31], t.phase)) (exec .dCopyin (inLoop 12#5 0x9#4 0#32 decReady)) =
    some (0x72#8, 0xc1#8, 13#5) := by decide

theorem test_d_load :
    got (fun t => (t.matrix.bits[0][4], t.matrix.bits[3][0], t.phase))
      (exec .dLoad { inLoop 13#5 0x9#4 0#32 decReady with blk := ⟨ctA, true⟩ }) =
    some (0xFFFFFFDE#32, 0x7a#32, 14#5) := by decide

/-- M4: INVPERMUTE of M3's export gives M3's load back. -/
theorem test_d_invperm :
    got (fun t => (t.matrix.bits[0][0], t.matrix.bits[0][7], t.matrix.bits[3][7], t.phase))
      (exec .dInvperm { inLoop 14#5 0x9#4 0#32 decReady with matrix := ⟨loadMatrix ctA, true⟩ }) =
    some (0x12#32, 0xFFFFFFDA#32, 0x0a#32, 15#5) := by decide

theorem test_d_export :
    got (fun t => (t.fed.bits[7], t.fed.bits[8], t.phase))
      (exec .dExport { inLoop 15#5 0x9#4 0#32 decReady with matrix := ⟨loadMatrix fedA, true⟩ }) =
    some (0xda#8, 0xc1#8, 16#5) := by decide

/-- KS9. -/
theorem test_d_xor :
    got (fun t => (decide (∀ j : Fin 32, t.out.bits[j] = blkA[j]), t.keyround.bits[0], t.phase))
      (exec .dXor { inLoop 16#5 0x9#4 0#32 decReady with fed := ⟨fedA, true⟩ }) = some (true, 0x5a#8, 17#5) := by decide

theorem test_d_copyout :
    got (fun t => (t.pt.lookup 18, t.pt.lookup 32, t.ptExt, t.phase))
      (exec .dCopyout { inLoop 17#5 0x9#4 0#32 decReady with out := ⟨blkA, true⟩ }) =
    some (some 0x0e#8, none, 32#32, 18#5) := by decide

/-- KS9: the new KEYROUND is the recovered block (under COPY_FED, KS10, it would be FED). -/
theorem test_d_chain :
    got (fun t => (decide (∀ j : Fin 32, t.keyround.bits[j] = blkA[j]), t.phase))
      (exec .dChain { inLoop 18#5 0x9#4 0#32 decReady with fed := ⟨fedA, true⟩ }) = some (true, 19#5) := by decide

theorem test_r_next :
    got (fun t => (t.outlen.bits, t.blkcnt.bits, t.phase)) (exec .rNext (inLoop 19#5 0x8#4 2#32 encReady)) =
    some (96#32, 3#32, 4#5) := by decide

/-- R214's example: total = 64, PT[63] = 0x18. -/
theorem test_d_strip :
    got (fun t => (t.padcnt.bits, t.pt.lookup 40, t.pt.lookup 39, t.pt.lookup 63, t.outlen.bits, t.phase))
      (exec .dStrip { inLoop 20#5 0x9#4 2#32 decReady with
        pt := cells ((List.replicate 64 0x55#8).set 63 0x18#8), ptExt := 64#32, total := ⟨64#32, true⟩ }) =
    some (0x18#8, some 0#8, some 0x55#8, some 0x18#8, 40#32, 21#5) := by decide

/-- T1: p = 0, nothing written at index 32 or elsewhere. -/
theorem test_d_strip_zero :
    got (fun t => (t.pt.lookup 32, t.pt.lookup 0, t.outlen.bits))
      (exec .dStrip { inLoop 20#5 0x9#4 1#32 decReady with
        pt := cells ((List.replicate 32 0x55#8).set 31 0#8), ptExt := 32#32 }) =
    some (none, some 0x55#8, 32#32) := by decide

theorem test_r_done_encrypt :
    got (fun t => (t.ctLen, t.statusWord, t.respPort, t.ptLen)) (exec .rDone (inLoop 21#5 0x8#4 1#32 encReady)) =
    some (32#32, 0x2#32, [⟨true, 32#32⟩], 40#32) := by decide

/-- T6: 0xFFFFFF21, STATUS 0x22. -/
theorem test_r_done_decrypt :
    got (fun t => (t.ptLen, t.statusWord, t.ctLen))
      (exec .rDone { inLoop 21#5 0x9#4 1#32 decReady with padcnt := ⟨0xff#8, true⟩, outlen := ⟨0xFFFFFF21#32, true⟩ }) =
    some (0xFFFFFF21#32, 0x22#32, 32#32) := by decide

/-! ### The datapath beyond the engine's use, host reads, reset -/

/-- KS4, KS5, KS6. -/
theorem test_xor_general :
    xorGeneral [0x01#8, 0x02#8] [0x0f#8, 0x0f#8, 0x0f#8] [1#8, 2#8, 3#8, 4#8] = (2, [0x0e#8, 0x0d#8, 3#8, 4#8]) ∧
    xorGeneral [1#8, 2#8, 3#8] [1#8, 2#8, 3#8, 4#8, 5#8] [9#8, 9#8, 9#8, 9#8] = (0, [9#8, 9#8, 9#8, 9#8]) ∧
    xorGeneral [] [1#8, 2#8, 3#8, 4#8] [9#8, 9#8, 9#8, 9#8] = (0, [9#8, 9#8, 9#8, 9#8]) := by decide

/-- R66. -/
theorem test_host_reads :
    encReady.hostRead 0#2 4#32 = .ok 40#32 ∧ encReady.hostRead 0#2 6#32 = .error .noSuchIndex ∧
    encReady.hostRead 1#2 1#32 = .ok 0x45#32 ∧ encReady.hostRead 1#2 40#32 = .error .noValue ∧
    encReady.hostRead 1#2 96#32 = .error .noSuchIndex ∧ encReady.hostRead 3#2 0#32 = .error .noValue ∧
    (at' 5#5 0x8#4 encReady).hostRead 1#2 1#32 = .error .busy ∧
    (at' 5#5 0x8#4 encReady).hostRead 0#2 0#32 = .ok 1#32 := by decide

/-- R251: reset in the middle of a command; no response. -/
theorem test_reset_input :
    got (fun t => (t.phase, t.keyLen, t.key.held, t.pt.length, t.respPort.length))
      (step ((inLoop 11#5 0x8#4 0#32 encReady).driveReset true)) = some (0#5, 0#32, false, 0, 0) := by decide

/-- R251: the 10 bytes delivered for a SET_KEY that waits in UPD are gone after a reset; an assertion with no step in
it resets too, and a read that follows answers the reset state (log entry 10). -/
theorem test_reset_drops_abandoned_payload :
    got (fun t => (t.payPort.length, t.phase))
      (step { at' 1#5 0x1#4 { fresh with payPort := List.replicate 10 0#8 } with resetIn := true }) = some (0, 0#5) ∧
    ((at' 1#5 0x1#4 { fresh with payPort := List.replicate 10 0#8 }).driveReset true).payPort = [] ∧
    (((inLoop 5#5 0x8#4 0#32 encReady).driveReset true).driveReset false).keyLen = 0#32 ∧
    ({ fresh with payPort := List.replicate 32 0#8 }.driveReset true).payPort.length = 32 ∧
    ((inLoop 5#5 0x8#4 0#32 encReady).driveReset true).hostRead 0#2 2#32 = .ok 0#32 := by decide

/-- A header placed after reset runs in the next step, with the payload R93 asks for. -/
theorem test_placed_header :
    got (fun t => (t.ivLen, t.payPort, t.phase)) (step (State.reset.withFetchWord 40 0x000000000)) =
    some (32#32, [], 0#5) := by decide

theorem test_placed_phase :
    got (fun t => t.phase) (step (State.reset.withFetchWord 8 0x09)) = some 10#5 := by decide

/-! ### Witnesses: for each statement with hypotheses, states and operands that meet them all -/

theorem lookup_zipIdx (bs : List Byte) (n a : Nat) :
    Memory.lookup ((bs.zipIdx n).map fun p => (p.2, p.1)) a = if a < n then none else bs[a - n]? := by
  induction bs generalizing n with
  | nil => simp
  | cons b bs ih =>
    simp only [List.zipIdx_cons, List.map_cons, Memory.lookup, ih]
    rcases Nat.lt_trichotomy a n with h | h | h
    · simp [h, Nat.ne_of_gt h, Nat.lt_succ_of_lt h]
    · simp [h]
    · obtain ⟨k, rfl⟩ : ∃ k, a = n + 1 + k := ⟨a - (n + 1), by omega⟩
      have e : n + 1 + k - n = k + 1 := by omega
      have e' : n + 1 + k - (n + 1) = k := by omega
      simp only [e, e', List.getElem?_cons_succ]
      simp [show ¬ n = n + 1 + k by omega, show ¬ n + 1 + k < n by omega, show ¬ n + 1 + k ≤ n by omega]

theorem lookup_cells (bs : List Byte) (a : Nat) : (cells bs).lookup a = bs[a]? := by
  simp [cells, lookup_zipIdx]

theorem cells_wf (bs : List Byte) : (cells bs).wf := by
  unfold cells Memory.wf
  generalize 0 = n
  induction bs generalizing n with
  | nil => simp
  | cons b bs ih =>
    simp only [List.zipIdx_cons, List.map_cons, List.pairwise_cons, ih, and_true]
    intro c hc
    obtain ⟨p, hp, rfl⟩ := List.mem_map.mp hc
    have := List.le_snd_of_mem_zipIdx hp
    simp; omega

/-- A state whose buffers are lists of bytes meets the context invariant if its registers do. -/
theorem context_of {s : State} (ps cs : List Byte) (hp : s.pt = cells ps) (hc : s.ct = cells cs)
    (ep : s.ptExt.toNat = ps.length) (ec : s.ctExt.toNat = cs.length) (hm : s.matrix = ⟨s.matrix.bits, false⟩ ∨
      s.matrix = ⟨zeroMatrix, true⟩)
    (hr : (32 ≤ s.maxLen ∧ s.maxLen ≤ 2 ^ 31) ∧ s.keyLen = 32#32 ∧ s.ivLen = 32#32 ∧ s.key.held = true ∧
      s.iv.held = true ∧ s.ptExt.toNat ≤ s.maxLen ∧ s.ctExt.toNat ≤ s.maxLen ∧ s.ptLen.toNat ≤ s.maxLen ∧
      (s.ctLen = 0#32 ∨ (32 ≤ s.ctLen.toNat ∧ s.ctLen.toNat ≤ s.maxLen))) : s.ContextInv := by
  obtain ⟨h0, h1, h2, h3, h4, h5, h6, h7, h8⟩ := hr
  refine ⟨h0, .inr h1, .inr h2, fun _ => h3, fun _ => h4, hp ▸ cells_wf ps, hc ▸ cells_wf cs, ?_, ?_, h5, h6,
    fun h => absurd h (by omega), h8, ?_⟩
  · intro a; rw [hp, lookup_cells, ep]; simp
  · intro a; rw [hc, lookup_cells, ec]; simp
  · intro held r c
    rcases hm with h | h <;> rw [h] at held ⊢
    · simp at held
    · rw [zeroMatrix_get]; rfl

/-- An IDLE engine with a text, a SET_IV packet and then an ENCRYPT packet waiting. -/
def waiting : State :=
  { encReady with cmdPort := [0x000000000#36, 0x800000000#36], payPort := ivA.toList ++ [] }

theorem witness_inv_idle : waiting.Inv :=
  ⟨context_of (blkA.toList ++ List.replicate 8 0x44#8) [] rfl rfl rfl rfl (.inl rfl) (by decide),
    fun _ => by decide, Nat.zero_le _⟩

/-- In E_COPYIN, block 0 of one. -/
def inCopyin : State := inLoop 5#5 0x8#4 0#32 encReady

theorem witness_inv_copyin : inCopyin.Inv :=
  ⟨context_of (blkA.toList ++ List.replicate 8 0x44#8) [] rfl rfl rfl rfl (.inr rfl) (by decide),
    ⟨rfl, ⟨⟨rfl, rfl, by decide, by decide, by decide⟩, rfl, rfl, rfl, rfl, rfl, by decide, rfl⟩, by decide, by decide, by decide⟩⟩

/-- In D_COPYIN, block 0 of one. -/
def inDCopyin : State := inLoop 12#5 0x9#4 0#32 decReady

theorem witness_inv_dcopyin : inDCopyin.Inv :=
  ⟨context_of [] ctA.toList rfl rfl rfl rfl (.inr rfl) (by decide),
    ⟨rfl, ⟨⟨rfl, rfl, by decide, by decide, by decide⟩, rfl, rfl, rfl, rfl, rfl, by decide, rfl⟩, by decide, by decide, by decide⟩⟩

/-- In D_STRIP, after the one block. -/
def inStrip : State := { inLoop 20#5 0x9#4 1#32 decReady with pt := cells blkA.toList, ptExt := 32#32 }

theorem witness_inv_strip : inStrip.Inv :=
  ⟨context_of blkA.toList ctA.toList rfl rfl rfl rfl (.inr rfl) (by decide),
    ⟨⟨rfl, ⟨⟨rfl, rfl, by decide, by decide, by decide⟩, rfl, rfl, rfl, rfl, rfl, by decide, rfl⟩, by decide⟩, rfl⟩⟩

theorem witness_EveryStepKeepsTheInvariant :
    (waiting.Inv ∧ ∃ t, step waiting = .next t) ∧ (inCopyin.Inv ∧ ∃ t, step inCopyin = .next t) ∧
    (inStrip.Inv ∧ ∃ t, step inStrip = .next t) :=
  ⟨⟨witness_inv_idle, _, rfl⟩, ⟨witness_inv_copyin, _, rfl⟩, ⟨witness_inv_strip, _, rfl⟩⟩

theorem witness_NoStepStopsUnderTheInvariant : ∃ s : State, s.Inv ∧ s.phase = 20#5 := ⟨inStrip, witness_inv_strip, rfl⟩

/-- The same states with other bits under registers that hold no value. -/
theorem witness_StepsDependOnlyOnLocationsThatHoldAValue :
    (inCopyin.Inv ∧ { inCopyin with fed := ⟨ivA, false⟩, padcnt := ⟨7#8, false⟩ }.Inv ∧
      inCopyin.SameValues { inCopyin with fed := ⟨ivA, false⟩, padcnt := ⟨7#8, false⟩ }) ∧
    (inCopyin.resetIn = false ∧ inCopyin.phase = 5#5) ∧
    (inDCopyin.Inv ∧ inDCopyin.resetIn = false ∧ inDCopyin.phase = 12#5) ∧
    (inStrip.Inv ∧ inStrip.resetIn = false ∧ inStrip.phase = 20#5) := by
  refine ⟨⟨witness_inv_copyin, ⟨?_, ?_⟩, ?_⟩, ⟨rfl, rfl⟩, ⟨witness_inv_dcopyin, rfl, rfl⟩, ⟨witness_inv_strip, rfl, rfl⟩⟩
  · exact context_of (blkA.toList ++ List.replicate 8 0x44#8) [] rfl rfl rfl rfl (.inr rfl) (by decide)
  · exact ⟨rfl, ⟨⟨rfl, rfl, by decide, by decide, by decide⟩, rfl, rfl, rfl, rfl, rfl, by decide, rfl⟩,
      by decide, by decide, by decide⟩
  · constructor <;> first | rfl | exact ⟨rfl, fun _ => rfl⟩ | exact ⟨rfl, nofun⟩

theorem witness_IdleStatesMeetTheListedInvariants :
    (waiting.Inv ∧ waiting.phase = 0#5) ∧
    (¬((1#2 : BitVec 2) = 0#2 ∧ (39#32 : Len) = 0#32) ∧ waiting.hostRead 1#2 39#32 = .ok 0x44#32) :=
  ⟨⟨witness_inv_idle, rfl⟩, by decide⟩

theorem witness_ResetMeetsTheInvariant : (32 ≤ 32 ∧ 32 ≤ 2 ^ 31) ∧ (32 ≤ 2 ^ 31 ∧ 2 ^ 31 ≤ 2 ^ 31) := by decide

theorem witness_EncodeOfDecodeIsTheCode :
    decode (.header 0xB00000007#36) = .ok (.runRsvdLow 1#1 7#32) ∧ decode (.phase 21#5) = .ok .rDone := by decide

theorem witness_LinesStandForWellFormedPackets :
    (Line.updOther 4).wellFormed = true ∧ (Line.updOther 7).wellFormed = true ∧
    (Line.runRsvd 10).wellFormed = true ∧ (Line.runRsvd 11).wellFormed = true ∧
    (Line.runRsvd 12).wellFormed = true ∧ (Line.runRsvd 15).wellFormed = true ∧
    (Line.setPlaintext (List.replicate 31 0#8)).wellFormed = true ∧
    (Line.setCiphertext (List.replicate 32 0#8)).wellFormed = true ∧
    (Line.setIv ivA).wellFormed = true ∧ (Line.setKey keyA).wellFormed = true ∧
    Line.encrypt.wellFormed = true ∧ Line.decrypt.wellFormed = true := by decide

theorem witness_StepRunsTheDecodedInstruction :
    (waiting.resetIn = false ∧ waiting.phase = 0#5 ∧ waiting.level = .command ∧
      waiting.cmdPort = 0x000000000#36 :: [0x800000000#36] ∧ decode (.header 0x000000000#36) = .ok (.setIv 0#32)) ∧
    (inStrip.resetIn = false ∧ inStrip.phase ≠ 0#5 ∧ decode (.phase inStrip.phase) = .ok .dStrip) ∧
    ({ waiting with level := .microstep }.resetIn = false ∧ { waiting with level := .microstep }.level = .microstep ∧
      decode (.phase { waiting with level := .microstep }.phase) = .ok .idle) ∧
    (fresh.resetIn = false ∧ fresh.cmdPort = [] ∧ decode (.phase fresh.phase) = .ok .idle) := by decide

theorem witness_UnusedPhaseCodesAreRefused :
    ((at' 22#5 0x8#4 fresh).resetIn = false ∧ 22 ≤ (at' 22#5 0x8#4 fresh).phase.toNat) ∧
    ((at' 31#5 0x8#4 fresh).resetIn = false ∧ 22 ≤ (at' 31#5 0x8#4 fresh).phase.toNat) := by decide

theorem witness_PlacedWordsAreWhatTheNextStepRuns :
    decodeTableWord 36 0x200000020 = some (.setPlaintext 32#32) ∧ decodeTableWord 5 21 = some .rDone ∧
    decodeTableWord 40 0xFFFFFFFFF = some (.runRsvdHigh 3#2 0xFFFFFFFF#32) := by decide

theorem witness_ResetClearsEverythingAndAloneUnsetsKeyAndIv :
    (inCopyin.driveReset true).resetIn = true ∧
    (inCopyin.resetIn = false ∧ (∃ t, step inCopyin = .next t) ∧ inCopyin.keyLen = 32#32 ∧ inCopyin.ivLen = 32#32) :=
  ⟨rfl, rfl, ⟨_, rfl⟩, rfl, rfl⟩

theorem witness_OnlySetKeyAndSetIvWriteKeyAndIv :
    (∃ t, exec (.setIv 0#32) waiting = .next t) ∧ (∃ t, exec (.setKey 0#32) waiting = .next t) ∧
    (∃ t, exec .upd (at' 1#5 0x2#4 waiting) = .next t) ∧
    (at' 1#5 0x2#4 waiting).op.bits.extractLsb' 0 3 ≠ 1#3 ∧ (at' 1#5 0x2#4 waiting).op.bits.extractLsb' 0 3 ≠ 0#3 :=
  ⟨⟨_, rfl⟩, ⟨_, rfl⟩, ⟨_, rfl⟩, by decide, by decide⟩

theorem witness_NoInstructionWritesParametersOrTheResetInput : ∃ t, exec .dStrip inStrip = .next t := ⟨_, rfl⟩

theorem witness_BusyEngineLeavesTheCommandPortAlone :
    inCopyin.resetIn = false ∧ inCopyin.phase ≠ 0#5 ∧
    ∃ t, step { inCopyin with cmdPort := [0x900000000#36] } = .next t := ⟨rfl, by decide, _, rfl⟩

theorem witness_StatusAndResultChangeOnlyAtACompletion :
    (∃ t, exec .eCopyin inCopyin = .next t) ∧ (∃ t, exec (.encrypt 0#32) fresh = .next t) := ⟨⟨_, rfl⟩, ⟨_, rfl⟩⟩

/-- Each bound of a read space on both sides: MAX_LEN = 96, PT_EXT = 40, KR = 32. -/
theorem witness_HostReadsFollowTheReadRules :
    (inCopyin.phase ≠ 0#5 ∧ ¬((0#2 : BitVec 2) = 0#2 ∧ (1#32 : Len) = 0#32)) ∧
    waiting.phase = 0#5 ∧ 6 ≤ (6#32 : Len).toNat ∧
    waiting.maxLen ≤ (96#32 : Len).toNat ∧ (95#32 : Len).toNat < waiting.maxLen ∧
    waiting.ptExt.toNat ≤ (40#32 : Len).toNat ∧ (39#32 : Len).toNat < waiting.ptExt.toNat ∧
    waiting.pt.lookup (39#32 : Len).toNat = some 0x44#8 ∧
    waiting.ctExt.toNat ≤ (0#32 : Len).toNat ∧
    decReady.phase = 0#5 ∧ (31#32 : Len).toNat < decReady.ctExt.toNat ∧ decReady.ct.lookup (31#32 : Len).toNat = some 0xc1#8 ∧
    32 ≤ (32#32 : Len).toNat ∧ (31#32 : Len).toNat < 32 ∧ waiting.keyround.held = false ∧
    { waiting with keyround := ⟨k0A, true⟩ }.keyround.held = true := by decide

theorem witness_SetIvAndSetKeyStoreThePayload :
    (waiting.payPort = ivA.toList ++ [] ∧ waiting.storageFault = none) ∧
    ({ waiting with storageFault := some ivA }.payPort = ivA.toList ++ [] ∧
      { waiting with storageFault := some ivA }.storageFault = some ivA) := ⟨⟨rfl, rfl⟩, rfl, rfl⟩

theorem witness_SetIvAndSetKeyReportACorruptedCopy :
    { waiting with storageFault := some keyA }.payPort = ivA.toList ++ [] ∧
    { waiting with storageFault := some keyA }.storageFault = some keyA ∧ keyA ≠ ivA := by
  refine ⟨rfl, rfl, fun h => ?_⟩
  have : keyA[0] = ivA[0] := by rw [h]
  revert this; decide

theorem witness_UpdatesWaitForTheirPayload :
    { fresh with payPort := List.replicate 31 0#8 }.payPort.length < 32 ∧
    (32 ≤ (32#32 : Len).toNat ∧ (32#32 : Len).toNat ≤ fresh.maxLen ∧
      { fresh with payPort := List.replicate 31 0#8 }.payPort.length < (32#32 : Len).toNat) ∧
    (32 ≤ (96#32 : Len).toNat ∧ (96#32 : Len).toNat ≤ fresh.maxLen ∧
      { fresh with payPort := List.replicate 95 0#8 }.payPort.length < (96#32 : Len).toNat) ∧
    ((at' 1#5 0x1#4 { fresh with payPort := List.replicate 31 0#8 }).phase = 1#5 ∧
      (List.replicate 31 0#8 : List Byte).length ≤ payloadBytes fresh.maxLen 0x1#4 0#32) ∧
    (List.replicate 32 0#8 : List Byte).length ≤ payloadBytes fresh.maxLen 0x2#4 32#32 := by decide

theorem witness_SetPlaintextStoresTheText :
    (32 ≤ (32#32 : Len).toNat ∧ (32#32 : Len).toNat ≤ waiting.maxLen ∧ ivA.toList.length = (32#32 : Len).toNat ∧
      waiting.payPort = ivA.toList ++ []) ∧
    (32 ≤ (96#32 : Len).toNat ∧ (96#32 : Len).toNat ≤ fresh.maxLen ∧
      (List.replicate 96 7#8 : List Byte).length = (96#32 : Len).toNat ∧
      { fresh with payPort := List.replicate 97 7#8 }.payPort = List.replicate 96 7#8 ++ [7#8]) := by decide

theorem witness_SetCiphertextStoresTheText :
    32 ≤ (32#32 : Len).toNat ∧ (32#32 : Len).toNat ≤ waiting.maxLen ∧ ivA.toList.length = (32#32 : Len).toNat ∧
      waiting.payPort = ivA.toList ++ [] := by decide

theorem witness_TextUpdatesRejectBadLengths :
    ((0#32 : Len).toNat < 32 ∧ Cause.short = .short) ∧ ((31#32 : Len).toNat < 32 ∧ Cause.short = .short) ∧
    (32 ≤ (97#32 : Len).toNat ∧ fresh.maxLen < (97#32 : Len).toNat ∧ Cause.capacity = .capacity) := by decide

theorem witness_UpdMicroStepRunsTheLatchedCommand :
    (at' 1#5 0x7#4 waiting).phase = 1#5 ∧ (at' 1#5 0x7#4 waiting).op.held = true ∧
    (at' 1#5 0x7#4 waiting).lenop.held = true ∧ (at' 1#5 0x7#4 waiting).op.bits.getLsbD 3 = false := by decide

/-- Every mode; the text modes at len = 32. -/
theorem witness_UpdMicroStepPerformsTheUpdate :
    (∀ m : Fin 8, m.val = ((at' 1#5 (BitVec.ofNat 4 m.val) waiting).op.bits.extractLsb' 0 3).toNat ∧
      (at' 1#5 (BitVec.ofNat 4 m.val) waiting).op.bits.getLsbD 3 = false) ∧
    ((at' 1#5 0x1#4 waiting).payPort = ivA.toList ++ [] ∧ (at' 1#5 0x1#4 waiting).storageFault = none) ∧
    (let s := { at' 1#5 0x3#4 waiting with lenop := ⟨32#32, true⟩ }
     32 ≤ s.lenop.bits.toNat ∧ s.lenop.bits.toNat ≤ s.maxLen ∧ ivA.toList.length = s.lenop.bits.toNat ∧
       s.payPort = ivA.toList ++ []) := ⟨by decide, ⟨rfl, rfl⟩, by decide⟩

theorem witness_WellFormedPacketsAreTakenWholeAndComplete :
    waiting.Inv ∧ waiting.resetIn = false ∧ waiting.phase = 0#5 ∧ waiting.level = .command ∧
    Packet.wellFormed waiting.maxLen ⟨0x000000000#36, ivA.toList⟩ = true ∧
    waiting.cmdPort = 0x000000000#36 :: [0x800000000#36] ∧ waiting.payPort = ivA.toList ++ [] :=
  ⟨witness_inv_idle, rfl, rfl, rfl, by decide, rfl, rfl⟩

theorem witness_IdleAcceptsThePresentedPacket :
    fresh.cmdPort = [] ∧ waiting.cmdPort = 0x000000000#36 :: [0x800000000#36] := ⟨rfl, rfl⟩

/-- The four arms of R_CHECK; the codes 0xA, 0x8 and 0x9. -/
theorem witness_RCheckTestsInOrder :
    (∀ s ∈ [at' 2#5 0xA#4 fresh, at' 2#5 0x8#4 fresh, at' 2#5 0x9#4 decReady, at' 2#5 0x8#4 encReady],
      s.op.bits.getLsbD 3 = true) ∧
    (2 ≤ ((at' 2#5 0xA#4 fresh).op.bits.extractLsb' 0 3).toNat) ∧
    (((at' 2#5 0x8#4 fresh).op.bits.extractLsb' 0 3).toNat < 2 ∧ (at' 2#5 0x8#4 fresh).ivLen = 0#32) ∧
    ((at' 2#5 0x9#4 decReady).ivLen ≠ 0#32 ∧ (at' 2#5 0x9#4 decReady).keyLen ≠ 0#32 ∧
      (at' 2#5 0x9#4 decReady).ctLen ≠ 0#32 ∧ (at' 2#5 0x9#4 decReady).ctLen.toNat ≤ decReady.maxLen) ∧
    ({ encReady with ptLen := 97#32 }.ptLen ≠ 0#32 ∧ encReady.maxLen < { encReady with ptLen := 97#32 }.ptLen.toNat) := by
  decide

theorem witness_RInitPreparesTheRun :
    (at' 3#5 0x8#4 encReady).op.bits = 0x8#4 ∧ (at' 3#5 0x9#4 decReady).op.bits = 0x9#4 := by decide

theorem witness_RTestBranchesOnTheBlockCount :
    (inLoop 4#5 0x8#4 1#32 encReady).op.bits = 0x8#4 ∧ (inLoop 4#5 0x9#4 0#32 decReady).op.bits ≠ 0x8#4 := by decide

theorem witness_RDoneWritesBackTheLength :
    (inLoop 21#5 0x8#4 1#32 encReady).op.bits = 0x8#4 ∧ (inLoop 21#5 0x9#4 1#32 decReady).op.bits ≠ 0x8#4 := by decide

/-- Block 0, and block 2, the last of a buffer of 96 bytes. -/
theorem witness_CopyInReadsTheBlock :
    (0 = 32 * inCopyin.blkcnt.bits.toNat ∧ 0 + 32 ≤ inCopyin.maxLen ∧ inCopyin.maxLen ≤ 2 ^ 31 ∧
      ∀ j : Fin 32, inCopyin.pt.lookup (0 + j.val) = some blkA[j]) ∧
    (let s := { inLoop 12#5 0x9#4 2#32 decReady with ct := cells (List.replicate 96 7#8) }
     64 = 32 * s.blkcnt.bits.toNat ∧ 64 + 32 ≤ s.maxLen ∧ s.maxLen ≤ 2 ^ 31 ∧
      ∀ j : Fin 32, s.ct.lookup (64 + j.val) = some (all32 7#8)[j]) := by decide

theorem witness_CopyOutWritesTheBlock :
    64 = 32 * (inLoop 11#5 0x8#4 2#32 encReady).blkcnt.bits.toNat ∧ 64 + 32 ≤ encReady.maxLen ∧
    encReady.maxLen ≤ 2 ^ 31 := by decide

/-- Block 2 is inside and block 3 outside a buffer of 96 bytes; TOTAL = 96 inside, 97 and 0 outside. -/
theorem witness_AccessesOutsideTheBuffersFault :
    (96 = 32 * (inLoop 5#5 0x8#4 3#32 encReady).blkcnt.bits.toNat % 2 ^ 32 ∧ encReady.maxLen < 96 + 32) ∧
    (64 = 32 * (inLoop 5#5 0x8#4 2#32 encReady).blkcnt.bits.toNat % 2 ^ 32 ∧ 64 + 32 ≤ encReady.maxLen) ∧
    (95 = ((96#32 : Len).toNat + 2 ^ 32 - 1) % 2 ^ 32 ∧ 95 < encReady.maxLen) ∧
    (96 = ((97#32 : Len).toNat + 2 ^ 32 - 1) % 2 ^ 32 ∧ encReady.maxLen ≤ 96) ∧
    (4294967295 = ((0#32 : Len).toNat + 2 ^ 32 - 1) % 2 ^ 32 ∧ encReady.maxLen ≤ 4294967295) := by decide

theorem witness_PermutationIsAnInvolution :
    ∃ t u, exec .ePerm inCopyin = .next t ∧ exec .dInvperm t = .next u := ⟨_, _, rfl, rfl⟩

theorem witness_GeneralXorAndItsThirtyTwoLanes :
    ([9#8] : List Byte).length < ([1#8, 2#8] : List Byte).length ∧
    (([1#8] : List Byte).length ≤ ([9#8] : List Byte).length ∧ ([2#8] : List Byte).length ≤ ([9#8] : List Byte).length) := by
  decide

/-- TOTAL = 32 and a last byte of 0, 1, 32 = TOTAL, 33, 255; and TOTAL = MAX_LEN. -/
theorem witness_StripRemovesThePadding :
    (∀ p ∈ [0#8, 1#8, 32#8, 33#8, 255#8],
      let s := { inStrip with pt := cells (List.replicate 31 0#8 ++ [p]) }
      1 ≤ s.total.bits.toNat ∧ s.total.bits.toNat ≤ s.maxLen ∧ s.pt.lookup (s.total.bits.toNat - 1) = some p) ∧
    (let s := { inStrip with pt := cells (List.replicate 96 7#8), total := ⟨96#32, true⟩ }
     1 ≤ s.total.bits.toNat ∧ s.total.bits.toNat ≤ s.maxLen ∧ s.pt.lookup (s.total.bits.toNat - 1) = some 7#8) := by
  decide

theorem witness_RunCommandsFailBeforeTouchingAnything :
    fresh.ivLen = 0#32 ∧ { keyed with keyLen := 0#32 }.keyLen = 0#32 ∧ keyed.ptLen = 0#32 ∧ keyed.ctLen = 0#32 ∧
    (¬(keyed.ivLen = 0#32 ∨ keyed.keyLen = 0#32 ∨ (97#32 : Len) = 0#32) ∧ keyed.maxLen < (97#32 : Len).toNat) := by
  decide

/-- PT_LEN = 40, 18 (no block) and 96 = MAX_LEN. -/
theorem witness_EncryptWritesThePermutedChain :
    (encReady.ivLen ≠ 0#32 ∧ encReady.keyLen ≠ 0#32) ∧
    (1 = { encReady with ptLen := 40#32 }.ptLen.toNat / 32 ∧ { encReady with ptLen := 40#32 }.ptLen ≠ 0#32 ∧
      { encReady with ptLen := 40#32 }.ptLen.toNat ≤ encReady.maxLen) ∧
    (0 = { encReady with ptLen := 18#32 }.ptLen.toNat / 32 ∧ { encReady with ptLen := 18#32 }.ptLen ≠ 0#32 ∧
      { encReady with ptLen := 18#32 }.ptLen.toNat ≤ encReady.maxLen) ∧
    (3 = { encReady with ptLen := 96#32 }.ptLen.toNat / 32 ∧ { encReady with ptLen := 96#32 }.ptLen ≠ 0#32 ∧
      { encReady with ptLen := 96#32 }.ptLen.toNat ≤ encReady.maxLen) := by decide

/-- CT_LEN = 32 and 96 = MAX_LEN. -/
theorem witness_DecryptWritesTheRecoveredBlocksAndStrips :
    (decReady.ivLen ≠ 0#32 ∧ decReady.keyLen ≠ 0#32) ∧
    (1 = decReady.ctLen.toNat / 32 ∧ 32 ≤ decReady.ctLen.toNat ∧ decReady.ctLen.toNat ≤ decReady.maxLen) ∧
    (3 = { decReady with ctLen := 96#32 }.ctLen.toNat / 32 ∧ 32 ≤ { decReady with ctLen := 96#32 }.ctLen.toNat ∧
      { decReady with ctLen := 96#32 }.ctLen.toNat ≤ decReady.maxLen) := by decide

theorem witness_DecryptOfLessThanABlockFaults :
    (decReady.ivLen ≠ 0#32 ∧ decReady.keyLen ≠ 0#32 ∧ decReady.maxLen ≤ 2 ^ 31) ∧
    (1 ≤ { decReady with ctLen := 1#32 }.ctLen.toNat ∧ { decReady with ctLen := 1#32 }.ctLen.toNat < 32 ∧
      { decReady with ctLen := 1#32 }.ctLen.toNat ≤ decReady.maxLen) ∧
    (1 ≤ { decReady with ctLen := 31#32 }.ctLen.toNat ∧ { decReady with ctLen := 31#32 }.ctLen.toNat < 32 ∧
      { decReady with ctLen := 31#32 }.ctLen.toNat ≤ decReady.maxLen) := by decide

/-- `s` in IDLE at the micro-step level, the header `h` presented. -/
def presented (s : State) (h : Header) : State := { s with level := .microstep, cmdPort := [h] }

/-- A run packet that passes R_CHECK and one that does not, of each kind. -/
theorem witness_MicroStepsReachTheCommandState :
    (opField 0x800000000#36 = 0x8#4 ∧ opField 0x900000000#36 = 0x9#4) ∧
    ((presented encReady 0x800000000#36).resetIn = false ∧ (presented encReady 0x800000000#36).phase = 0#5 ∧
      (presented encReady 0x800000000#36).level = .microstep ∧
      (presented encReady 0x800000000#36).cmdPort = 0x800000000#36 :: [] ∧
      ¬(encReady.ivLen = 0#32 ∨ encReady.keyLen = 0#32 ∨ encReady.ptLen = 0#32 ∨ encReady.maxLen < encReady.ptLen.toNat)) ∧
    ((presented decReady 0x900000000#36).resetIn = false ∧ (presented decReady 0x900000000#36).phase = 0#5 ∧
      (presented decReady 0x900000000#36).level = .microstep ∧
      (presented decReady 0x900000000#36).cmdPort = 0x900000000#36 :: [] ∧
      ¬(decReady.ivLen = 0#32 ∨ decReady.keyLen = 0#32 ∨ decReady.ctLen = 0#32 ∨ decReady.maxLen < decReady.ctLen.toNat)) ∧
    ((presented fresh 0x800000000#36).resetIn = false ∧ (presented fresh 0x800000000#36).phase = 0#5 ∧
      (presented fresh 0x800000000#36).level = .microstep ∧ (presented fresh 0x900000000#36).cmdPort = 0x900000000#36 :: [] ∧
      (presented fresh 0x800000000#36).ivLen = 0#32) := by decide

theorem witness_UpdatesAndReservedCommandsTakeOneMicroStep :
    let s := { waiting with level := .microstep }
    s.resetIn = false ∧ s.phase = 0#5 ∧ s.level = .microstep ∧ s.cmdPort = 0x000000000#36 :: [0x800000000#36] ∧
    opField 0x000000000#36 ≠ 0x8#4 ∧ opField 0x000000000#36 ≠ 0x9#4 ∧
    opField 0xF00000000#36 ≠ 0x8#4 ∧ opField 0xF00000000#36 ≠ 0x9#4 := by decide

/-- A text of three blocks. -/
def threeBlocks : State :=
  { keyed with pt := cells (List.replicate 96 0x41#8), ptLen := 96#32, ptExt := 96#32 }

/-- PT_LEN = 96 = MAX_LEN, and 32. -/
theorem witness_DecryptOfEncryptRecoversWhatTheChainAllows :
    (3 = threeBlocks.ptLen.toNat / 32 ∧ threeBlocks.ivLen ≠ 0#32 ∧ threeBlocks.keyLen ≠ 0#32 ∧
      32 ≤ threeBlocks.ptLen.toNat ∧ threeBlocks.ptLen.toNat ≤ threeBlocks.maxLen) ∧
    (1 = { encReady with ptLen := 32#32 }.ptLen.toNat / 32 ∧ encReady.ivLen ≠ 0#32 ∧ encReady.keyLen ≠ 0#32 ∧
      32 ≤ { encReady with ptLen := 32#32 }.ptLen.toNat ∧ { encReady with ptLen := 32#32 }.ptLen.toNat ≤ encReady.maxLen) := by
  decide

/-- Two engines that differ in PT[32 .. 39], which a run of PT_LEN = 40 never reads, and in the other text. -/
theorem witness_RunCommandsDependOnlyOnKeyIvAndText :
    let s := { encReady with ct := decReady.ct, ctLen := 32#32, ctExt := 32#32 }
    let s' := { s with pt := cells (blkA.toList ++ List.replicate 8 0x55#8), keyround := ⟨k0A, true⟩ }
    s.key.bits = s'.key.bits ∧ s.iv.bits = s'.iv.bits ∧ s.keyLen = s'.keyLen ∧ s.ivLen = s'.ivLen ∧
    s.maxLen = s'.maxLen ∧ s.keyLen ≠ 0#32 ∧ s.ivLen ≠ 0#32 ∧
    (s.ptLen = s'.ptLen ∧ s.ptLen ≠ 0#32 ∧ s.ptLen.toNat ≤ s.maxLen ∧
      ∀ a, a < 32 * (s.ptLen.toNat / 32) → s.pt.byteAt .pt a = s'.pt.byteAt .pt a) ∧
    (s.ctLen = s'.ctLen ∧ 32 ≤ s.ctLen.toNat ∧ s.ctLen.toNat ≤ s.maxLen ∧
      ∀ a, a < 32 * (s.ctLen.toNat / 32) → s.ct.byteAt .ct a = s'.ct.byteAt .ct a) :=
  ⟨rfl, rfl, rfl, rfl, rfl, by decide, by decide, ⟨rfl, by decide, by decide, by decide⟩,
    ⟨rfl, by decide, by decide, fun _ _ => rfl⟩⟩

/-- S6: PT[0] differs by 01. -/
theorem witness_DifferenceInBlockZeroReachesEveryBlock :
    let s := threeBlocks
    let s' := { s with pt := cells (0x40#8 :: List.replicate 95 0x41#8) }
    let delta : Block := Vector.ofFn fun j => if j = 0 then 1#8 else 0#8
    (3 = s.ptLen.toNat / 32 ∧ s.key = s'.key ∧ s.iv = s'.iv ∧ s.ptLen = s'.ptLen ∧ s.maxLen = s'.maxLen) ∧
    (s.ivLen ≠ 0#32 ∧ s.keyLen ≠ 0#32 ∧ s.ptLen ≠ 0#32 ∧ s.ptLen.toNat ≤ s.maxLen ∧ s'.ivLen ≠ 0#32 ∧ s'.keyLen ≠ 0#32) ∧
    (∀ j : Fin 32, s'.plainByte 0 j = s.plainByte 0 j ^^^ delta[j]) ∧
    (∀ i, 0 < i → i < 3 → ∀ j : Fin 32, s'.plainByte i j = s.plainByte i j) ∧
    (∃ t, exec (.encrypt 0#32) s = .next t) ∧ (∃ t, exec (.encrypt 0#32) s' = .next t) := by
  refine ⟨⟨rfl, rfl, rfl, rfl, rfl⟩, by decide, by decide, ?_, encrypt_answers _ _, encrypt_answers _ _⟩
  intro i h0 h3
  obtain rfl | rfl : i = 1 ∨ i = 2 := by omega
  · decide
  · decide

theorem witness_WorkingRegistersCarryNothing :
    let s := encReady
    let s' := { s with keyround := ⟨fedA, true⟩, blkcnt := ⟨7#32, true⟩, op := ⟨0x9#4, true⟩ }
    s' = { s with
      keyround := s'.keyround, matrix := s'.matrix, blk := s'.blk, fed := s'.fed, out := s'.out,
      blkcnt := s'.blkcnt, nmemb := s'.nmemb, total := s'.total, outlen := s'.outlen, padcnt := s'.padcnt,
      op := s'.op, lenop := s'.lenop } ∧
    ∃ t, exec (.encrypt 0#32) s = .next t ∧ t.status.ok = true :=
  ⟨rfl, next_of_got (f := fun t => t.status.ok) (by decide)⟩

end Sys2Proof.Tests
end

section
/-! What a step runs (R30, R103), the settings that no instruction writes, and UPD as the latched update command
(R120). -/

namespace Sys2Proof.Machine

/-! ### One step, by what is next -/

/-- In IDLE at the command level the presented header is what a step runs (R103 item 1). -/
theorem step_of_header {s : State} {h : Header} {rest : List Header} (hr : s.resetIn = false)
    (hp : s.phase = 0#5) (hl : s.level = .command) (hc : s.cmdPort = h :: rest) :
    step s = exec (decodeHeader h) { s with cmdPort := rest } := by
  rcases step_cases s with ⟨hr', _⟩ | ⟨_, h', rest', _, _, hc', e⟩ | ⟨_, hn, _⟩
  · simp [hr] at hr'
  · obtain ⟨rfl, rfl⟩ : h' = h ∧ rest' = rest := by simpa [hc, eq_comm] using hc'
    exact e
  · simp [hp, hl, hc] at hn

/-- Where no header is taken, a step runs the micro-step of PHASE (R30). -/
theorem step_of_phase {s : State} {i : Instr} (hr : s.resetIn = false)
    (hn : s.phase ≠ 0#5 ∨ s.level = .microstep ∨ s.cmdPort = []) (hd : decodePhase s.phase = .ok i) :
    step s = exec i s := by
  rcases step_cases s with ⟨hr', _⟩ | ⟨_, h, rest, hp, hl, hc, _⟩ | ⟨_, _, ⟨j, hj, e⟩ | ⟨e, he, _⟩⟩
  · simp [hr] at hr'
  · simp [hp, hl, hc] at hn
  · obtain rfl : j = i := by simpa [hd, eq_comm] using hj
    exact e
  · simp [hd] at he

/-- Settles O6: the two cases of `fetch`, one lemma each. -/
theorem stepRunsTheDecodedInstruction : Obligations.StepRunsTheDecodedInstruction := by
  refine ⟨fun s h rest i hr hp hl hc hd => ?_, fun s i hr hn hd => step_of_phase hr hn hd⟩
  obtain rfl : decodeHeader h = i := by simpa [decode] using hd
  exact step_of_header hr hp hl hc

/-! ### What no instruction writes -/

/-- `t` has the MAX_LEN, the level and the reset input of `s`. -/
structure State.SameSettings (s t : State) : Prop where
  maxLen : t.maxLen = s.maxLen
  level : t.level = s.level
  resetIn : t.resetIn = s.resetIn

theorem State.SameSettings.trans {s t u : State} (h : s.SameSettings t) (h' : t.SameSettings u) :
    s.SameSettings u :=
  ⟨h'.maxLen.trans h.maxLen, h'.level.trans h.level, h'.resetIn.trans h.resetIn⟩

theorem State.sameSettings_updateIv (s : State) : s.SameSettings s.updateIv := by
  rcases s.updateIv_cases with ⟨_, e⟩ | ⟨b, rest, _, ⟨_, e⟩ | ⟨_, e⟩⟩ <;> rw [e] <;> exact ⟨rfl, rfl, rfl⟩

theorem State.sameSettings_updateKey (s : State) : s.SameSettings s.updateKey := by
  rcases s.updateKey_cases with ⟨_, e⟩ | ⟨b, rest, _, ⟨_, e⟩ | ⟨_, e⟩⟩ <;> rw [e] <;> exact ⟨rfl, rfl, rfl⟩

theorem State.sameSettings_updatePlaintext (s : State) : s.SameSettings s.updatePlaintext := by
  rcases s.updatePlaintext_cases with ⟨_, e⟩ | ⟨_, _, e⟩ | ⟨_, _, ⟨_, e⟩ | ⟨bs, rest, _, _, e⟩⟩ <;>
    rw [e] <;> exact ⟨rfl, rfl, rfl⟩

theorem State.sameSettings_updateCiphertext (s : State) : s.SameSettings s.updateCiphertext := by
  rcases s.updateCiphertext_cases with ⟨_, e⟩ | ⟨_, _, e⟩ | ⟨_, _, ⟨_, e⟩ | ⟨bs, rest, _, _, e⟩⟩ <;>
    rw [e] <;> exact ⟨rfl, rfl, rfl⟩

theorem State.sameSettings_initRun (s : State) : s.SameSettings s.initRun := by
  rw [State.initRun]
  split <;> exact ⟨rfl, rfl, rfl⟩

theorem State.sameSettings_encryptBlock (s : State) : s.SameSettings s.encryptBlock := by
  rw [s.encryptBlock_frame]
  exact ⟨rfl, rfl, rfl⟩

theorem State.sameSettings_decryptBlock (s : State) : s.SameSettings s.decryptBlock := by
  rw [s.decryptBlock_frame]
  exact ⟨rfl, rfl, rfl⟩

theorem State.sameSettings_encryptBlocks (n : Nat) (s : State) :
    s.SameSettings (State.encryptBlocks n s) :=
  State.encryptBlocks_induct (fun t h => h.trans t.sameSettings_encryptBlock) n s ⟨rfl, rfl, rfl⟩

theorem State.sameSettings_decryptBlocks (n : Nat) (s : State) :
    s.SameSettings (State.decryptBlocks n s) :=
  State.decryptBlocks_induct (fun t h => h.trans t.sameSettings_decryptBlock) n s ⟨rfl, rfl, rfl⟩

theorem State.sameSettings_encryptCall (s : State) : s.SameSettings s.encryptCall := by
  rcases s.encryptCall_cases with ⟨_, e⟩ | ⟨_, _, e⟩ | ⟨_, _, e⟩ <;> rw [e]
  · exact ⟨rfl, rfl, rfl⟩
  · exact ⟨rfl, rfl, rfl⟩
  · have hloop := s.sameSettings_initRun.trans (State.sameSettings_encryptBlocks (blockCount s.ptLen).toNat _)
    obtain ⟨hmax, hlevel, hreset⟩ := hloop
    exact ⟨hmax, hlevel, hreset⟩

/-- If the outcome is a next state, its settings are those of `s`. -/
def State.KeepsSettings (s : State) (o : Host.Outcome State Fault Refusal) : Prop :=
  ∀ t, o = .next t → s.SameSettings t

theorem State.SameSettings.next {s t : State} (h : s.SameSettings t) : s.KeepsSettings (.next t) := by
  rintro _ ⟨⟩
  exact h

theorem State.keepsSettings_fault (s : State) (r : Fault) : s.KeepsSettings (.fault r) := by
  intro t h
  cases h

theorem State.keepsSettings_strip (s : State) : s.KeepsSettings s.strip := by
  rcases s.strip_cases with ⟨_, e⟩ | ⟨_, e⟩ <;> rw [e]
  · exact State.SameSettings.next ⟨rfl, rfl, rfl⟩
  · exact s.keepsSettings_fault _

theorem State.keepsSettings_decryptCall (s : State) : s.KeepsSettings s.decryptCall := by
  rcases s.decryptCall_cases with ⟨_, e⟩ | ⟨_, _, e⟩ | ⟨_, _, ⟨t, hs, e⟩ | ⟨r, _, e⟩⟩ <;> rw [e]
  · exact State.SameSettings.next ⟨rfl, rfl, rfl⟩
  · exact State.SameSettings.next ⟨rfl, rfl, rfl⟩
  · have hloop := s.sameSettings_initRun.trans (State.sameSettings_decryptBlocks (blockCount s.ctLen).toNat _)
    have hstrip := State.keepsSettings_strip _ t hs
    obtain ⟨hmax, hlevel, hreset⟩ := hloop.trans hstrip
    exact State.SameSettings.next ⟨hmax, hlevel, hreset⟩
  · exact s.keepsSettings_fault r

theorem State.keepsSettings_dStrip (s : State) : s.KeepsSettings (execDStrip s) := by
  rcases s.strip_cases with ⟨_, e⟩ | ⟨_, e⟩ <;> rw [execDStrip, e]
  · exact State.SameSettings.next ⟨rfl, rfl, rfl⟩
  · exact s.keepsSettings_fault _

theorem State.keepsSettings_upd (s : State) : s.KeepsSettings (execUpd s) := by
  rcases execUpd_cases s with e | e | e | e | e <;> rw [e]
  · exact s.sameSettings_updateIv.next
  · exact s.sameSettings_updateKey.next
  · exact s.sameSettings_updatePlaintext.next
  · exact s.sameSettings_updateCiphertext.next
  · exact State.SameSettings.next ⟨rfl, rfl, rfl⟩

theorem State.keepsSettings_idle (s : State) : s.KeepsSettings (execIdle s) := by
  rw [execIdle]
  split <;> exact State.SameSettings.next ⟨rfl, rfl, rfl⟩

theorem State.keepsSettings_rCheck (s : State) : s.KeepsSettings (execRCheck s) := by
  refine State.SameSettings.next ?_
  split_ifs <;> exact ⟨rfl, rfl, rfl⟩

theorem State.keepsSettings_rInit (s : State) : s.KeepsSettings (execRInit s) := by
  obtain ⟨hmax, hlevel, hreset⟩ := s.sameSettings_initRun
  exact State.SameSettings.next ⟨hmax, hlevel, hreset⟩

theorem State.keepsSettings_rDone (s : State) : s.KeepsSettings (execRDone s) := by
  refine State.SameSettings.next ?_
  rw [State.finishRun]
  split <;> exact ⟨rfl, rfl, rfl⟩

/-- A micro-step guarded by `blockInBuffer` keeps the settings if its effect does. -/
theorem State.keepsSettings_guarded {s t : State} {r : Fault} (b : Bool) (h : s.SameSettings t) :
    s.KeepsSettings (if b then .next t else .fault r) := by
  cases b
  · exact s.keepsSettings_fault r
  · exact h.next

/-- Every instruction keeps MAX_LEN, the level and the reset input. -/
theorem exec_keepsSettings (i : Instr) (s : State) : s.KeepsSettings (exec i s) := by
  have hlatch (op : BitVec 4) (len : Len) (p : PhaseCode) : s.SameSettings (s.latch op len p) :=
    ⟨rfl, rfl, rfl⟩
  cases i with
  | setIv len => exact ((hlatch _ _ _).trans (State.sameSettings_updateIv _)).next
  | setKey len => exact ((hlatch _ _ _).trans (State.sameSettings_updateKey _)).next
  | setPlaintext len => exact ((hlatch _ _ _).trans (State.sameSettings_updatePlaintext _)).next
  | setCiphertext len => exact ((hlatch _ _ _).trans (State.sameSettings_updateCiphertext _)).next
  | encrypt len => exact ((hlatch _ _ _).trans (State.sameSettings_encryptCall _)).next
  | decrypt len => exact fun t h => (hlatch _ _ _).trans (State.keepsSettings_decryptCall _ t h)
  | idle => exact s.keepsSettings_idle
  | upd => exact s.keepsSettings_upd
  | rCheck => exact s.keepsSettings_rCheck
  | rInit => exact s.keepsSettings_rInit
  | dStrip => exact s.keepsSettings_dStrip
  | rDone => exact s.keepsSettings_rDone
  | eCopyin | eCopyout | dCopyin | dCopyout => exact State.keepsSettings_guarded _ ⟨rfl, rfl, rfl⟩
  | updOther | runRsvdLow | runRsvdHigh | rTest | eXor | eChain | eLoad | ePerm | eExport | dLoad | dInvperm
  | dExport | dXor | dChain | rNext => exact State.SameSettings.next ⟨rfl, rfl, rfl⟩

/-- Settles O17, by cases on the instruction. -/
theorem noInstructionWritesParametersOrTheResetInput :
    Obligations.NoInstructionWritesParametersOrTheResetInput := by
  intro i s t h
  obtain ⟨hmax, hlevel, hreset⟩ := exec_keepsSettings i s t h
  exact ⟨hmax, hlevel, hreset⟩

/-! ### UPD -/

/-- The command level of an update: accept the packet, then the micro-step UPD (R11, R120). -/
theorem exec_decodeOp_of_update (op : BitVec 4) (len : Len) (s : State) (hop : op.getLsbD 3 = false) :
    exec (decodeOp op len) s = execUpd (s.latch op len 1#5) := by
  have hcodes : op = 0#4 ∨ op = 1#4 ∨ op = 2#4 ∨ op = 3#4 ∨ op = 4#4 ∨ op = 5#4 ∨ op = 6#4 ∨ op = 7#4 := by
    revert op; decide
  rcases hcodes with rfl | rfl | rfl | rfl | rfl | rfl | rfl | rfl <;> rfl

/-- Latching what is latched already changes nothing. -/
theorem State.latch_self {s : State} (ho : s.op.held = true) (hl : s.lenop.held = true) :
    s.latch s.op.bits s.lenop.bits s.phase = s := by
  rw [State.latch, ← Reg.eq_value ho, ← Reg.eq_value hl]

/-- Settles O30: UPD runs on the state that accepting the latched packet again leaves as it is. -/
theorem updMicroStepRunsTheLatchedCommand : Obligations.UpdMicroStepRunsTheLatchedCommand := by
  refine ⟨fun s => ⟨_, rfl⟩, fun s hp ho hl hop => ?_⟩
  rw [exec_decodeOp_of_update _ _ _ hop, ← hp, State.latch_self ho hl]
  rfl

end Sys2Proof.Machine
end

section
/-! The two levels of description (R11): the micro-steps of a run command reach the state of the command (R206),
in the number of micro-steps of R208. -/

namespace Sys2Proof.Machine

/-! ### Runs of micro-steps -/

/-- Any instruction but IDLE that PHASE selects is what a step runs (R30, R99). -/
theorem step_of_microstep {s : State} {i : Instr} (hi : i ≠ .idle) (hr : s.resetIn = false)
    (hd : decodePhase s.phase = .ok i) : step s = exec i s := by
  refine step_of_phase hr (.inl fun hp => hi ?_) hd
  rw [hp] at hd
  cases hd
  rfl

theorem steps_one (s : State) : steps 1 s = step s := by
  rw [steps]
  cases step s <;> rfl

/-- A micro-step that answers a next state, and what the rest of the run gives from there. -/
theorem steps_succ_of_exec {s t : State} {o : Host.Outcome State Fault Refusal} (i : Instr) {k : Nat}
    (hi : i ≠ .idle) (hr : s.resetIn = false) (hd : decodePhase s.phase = .ok i) (he : exec i s = .next t)
    (ho : steps k t = o) : steps (k + 1) s = o := by
  rw [steps, step_of_microstep hi hr hd, he]
  exact ho

/-- A micro-step that faults ends the run. -/
theorem steps_succ_of_exec_fault {s : State} {r : Fault} (i : Instr) {k : Nat} (hi : i ≠ .idle)
    (hr : s.resetIn = false) (hd : decodePhase s.phase = .ok i) (he : exec i s = .fault r) :
    steps (k + 1) s = .fault r := by
  rw [steps, step_of_microstep hi hr hd, he]

/-- The state in which R_CHECK finds a run command: OP and LENOP latched, the header taken off the port (R212). -/
def State.acceptRun (op : BitVec 4) (len : Len) (rest : List Header) (s : State) : State :=
  ({ s with cmdPort := rest } : State).latch op len 2#5

/-- In IDLE at the micro-step level the first step of a run accepts the run command presented (R212). -/
theorem steps_succ_of_accept {s : State} {h : Header} {rest : List Header} {k : Nat} (hr : s.resetIn = false)
    (hp : s.phase = 0#5) (hl : s.level = .microstep) (hc : s.cmdPort = h :: rest)
    (hclass : (opField h).getLsbD 3 = true) :
    steps (k + 1) s = steps k (s.acceptRun (opField h) (lenField h) rest) := by
  have he : step s = execIdle s := step_of_phase (i := .idle) hr (.inr (.inl hl)) (by rw [hp]; rfl)
  rw [steps, he, execIdle, hc]
  simp only [hclass, if_true, State.acceptRun]

/-! ### PHASE does not matter to the parts both levels share -/

/-- The state with PHASE set to `p` and all else as it is. -/
def State.setPhase (p : PhaseCode) (s : State) : State := { s with phase := p }

theorem State.initRun_setPhase (p : PhaseCode) (s : State) :
    (s.setPhase p).initRun = s.initRun.setPhase p := by
  rw [State.initRun, State.initRun]
  split <;> simp_all [State.setPhase, State.allocCt, State.allocPt, State.inputLen]

theorem State.encryptBlock_setPhase (p : PhaseCode) (s : State) :
    (s.setPhase p).encryptBlock = s.encryptBlock.setPhase p := by
  simp only [State.encryptBlock, State.setPhase, State.blockIndex]

theorem State.decryptBlock_setPhase (p : PhaseCode) (s : State) :
    (s.setPhase p).decryptBlock = s.decryptBlock.setPhase p := by
  simp only [State.decryptBlock, State.setPhase, State.blockIndex]

theorem State.encryptBlocks_setPhase (p : PhaseCode) (n : Nat) (s : State) :
    State.encryptBlocks n (s.setPhase p) = (State.encryptBlocks n s).setPhase p := by
  induction n generalizing s with
  | zero => rfl
  | succ n ih => rw [State.encryptBlocks, s.encryptBlock_setPhase, ih, State.encryptBlocks]

theorem State.decryptBlocks_setPhase (p : PhaseCode) (n : Nat) (s : State) :
    State.decryptBlocks n (s.setPhase p) = (State.decryptBlocks n s).setPhase p := by
  induction n generalizing s with
  | zero => rfl
  | succ n ih => rw [State.decryptBlocks, s.decryptBlock_setPhase, ih, State.decryptBlocks]

/-! ### The loop -/

/-- In R_TEST of a run of operation `op` with `n` blocks to go, every block inside the buffers. -/
structure State.BlocksLeft (op : BitVec 4) (n : Nat) (s : State) : Prop where
  released : s.resetIn = false
  phase : s.phase = 4#5
  op : s.op.bits = op
  count : s.blkcnt.bits.toNat + n = s.nmemb.bits.toNat
  fits : 32 * s.nmemb.bits.toNat ≤ s.maxLen
  words : 32 * s.nmemb.bits.toNat < 2 ^ 32

/-- The current block lies inside the buffers, also after micro-steps that leave BLKCNT alone (R63). -/
theorem State.BlocksLeft.blockInBuffer {s t : State} {op : BitVec 4} {n : Nat} (h : s.BlocksLeft op (n + 1))
    (hcnt : t.blkcnt = s.blkcnt) (hmax : t.maxLen = s.maxLen) : t.blockInBuffer t.blockIndex = true := by
  obtain ⟨_, _, _, hcount, hfits, hwords⟩ := h
  have hindex : t.blockIndex.toNat = 32 * s.blkcnt.bits.toNat := by
    rw [State.blockIndex, hcnt, BitVec.toNat_mul]
    exact Nat.mod_eq_of_lt (show 32 * s.blkcnt.bits.toNat < 2 ^ 32 by omega)
  rw [State.blockInBuffer, hindex, hmax]
  exact decide_eq_true (by omega)

/-- Counting a block leaves one block less, if the pass keeps what the loop test and the block index read. -/
theorem State.BlocksLeft.next {s t : State} {op : BitVec 4} {n : Nat} (h : s.BlocksLeft op (n + 1))
    (hframe : t = { t with resetIn := s.resetIn, phase := s.phase, op := s.op, nmemb := s.nmemb, maxLen := s.maxLen })
    (hcnt : t.blkcnt = .value (s.blkcnt.bits + 1#32)) : t.BlocksLeft op n := by
  obtain ⟨hreleased, hphase, hop, hcount, hfits, hwords⟩ := h
  have hsucc : (s.blkcnt.bits + 1#32).toNat = s.blkcnt.bits.toNat + 1 := by
    rw [BitVec.toNat_add]
    exact Nat.mod_eq_of_lt (show s.blkcnt.bits.toNat + 1 < 2 ^ 32 by omega)
  rw [hframe]
  refine ⟨hreleased, hphase, hop, ?_, hfits, hwords⟩
  show t.blkcnt.bits.toNat + n = s.nmemb.bits.toNat
  rw [hcnt, Reg.value_bits, hsucc]
  omega

theorem State.BlocksLeft.encryptBlock {s : State} {op : BitVec 4} {n : Nat} (h : s.BlocksLeft op (n + 1)) :
    s.encryptBlock.BlocksLeft op n :=
  h.next (by rw [s.encryptBlock_frame]) s.encryptBlock_blkcnt

theorem State.BlocksLeft.decryptBlock {s : State} {op : BitVec 4} {n : Nat} (h : s.BlocksLeft op (n + 1)) :
    s.decryptBlock.BlocksLeft op n :=
  h.next (by rw [s.decryptBlock_frame]) s.decryptBlock_blkcnt

/-- R_TEST with a block to go enters the body of the loop (R187). -/
theorem State.BlocksLeft.steps_enter {s : State} {op : BitVec 4} {n k : Nat} (h : s.BlocksLeft op (n + 1)) :
    steps (k + 1) s = steps k (s.setPhase (if op = 0x8#4 then 5#5 else 12#5)) := by
  obtain ⟨hreleased, hphase, hop, hcount, _, _⟩ := h
  refine steps_succ_of_exec .rTest (by decide) hreleased (by rw [hphase]; rfl) ?_ rfl
  have hlt : s.blkcnt.bits.toNat < s.nmemb.bits.toNat := by omega
  show execRTest s = _
  rw [execRTest, if_pos hlt, hop, State.setPhase]

/-- R_TEST with no block to go leaves the loop (R187). -/
theorem State.BlocksLeft.steps_leave {s : State} {op : BitVec 4} {k : Nat} (h : s.BlocksLeft op 0) :
    steps (k + 1) s = steps k (s.setPhase (if op = 0x8#4 then 21#5 else 20#5)) := by
  obtain ⟨hreleased, hphase, hop, hcount, _, _⟩ := h
  refine steps_succ_of_exec .rTest (by decide) hreleased (by rw [hphase]; rfl) ?_ rfl
  have hlt : ¬ s.blkcnt.bits.toNat < s.nmemb.bits.toNat := by omega
  show execRTest s = _
  rw [execRTest, if_neg hlt, hop, State.setPhase]

/-- The loop test and the eight micro-steps of one block of ENCRYPT are one pass of its loop (R188 to R194, R203). -/
theorem State.BlocksLeft.steps_encryptBlock {s : State} {n k : Nat} (h : s.BlocksLeft 0x8#4 (n + 1)) :
    steps (k + 9) s = steps k s.encryptBlock := by
  refine h.steps_enter.trans ?_
  have hr := h.released
  refine steps_succ_of_exec .eCopyin (by decide) hr rfl (execECopyin_next (h.blockInBuffer rfl rfl)) ?_
  refine steps_succ_of_exec .eXor (by decide) hr rfl rfl ?_
  refine steps_succ_of_exec .eChain (by decide) hr rfl rfl ?_
  refine steps_succ_of_exec .eLoad (by decide) hr rfl rfl ?_
  refine steps_succ_of_exec .ePerm (by decide) hr rfl rfl ?_
  refine steps_succ_of_exec .eExport (by decide) hr rfl rfl ?_
  refine steps_succ_of_exec .eCopyout (by decide) hr rfl (execECopyout_next (h.blockInBuffer rfl rfl)) ?_
  refine steps_succ_of_exec .rNext (by decide) hr rfl rfl ?_
  simp only [State.encryptBlock, State.setPhase, State.blockIndex, Reg.value_bits, h.phase]

/-- The loop test and the eight micro-steps of one block of DECRYPT are one pass of its loop (R196 to R203). -/
theorem State.BlocksLeft.steps_decryptBlock {s : State} {n k : Nat} (h : s.BlocksLeft 0x9#4 (n + 1)) :
    steps (k + 9) s = steps k s.decryptBlock := by
  refine h.steps_enter.trans ?_
  have hr := h.released
  refine steps_succ_of_exec .dCopyin (by decide) hr rfl (execDCopyin_next (h.blockInBuffer rfl rfl)) ?_
  refine steps_succ_of_exec .dLoad (by decide) hr rfl rfl ?_
  refine steps_succ_of_exec .dInvperm (by decide) hr rfl rfl ?_
  refine steps_succ_of_exec .dExport (by decide) hr rfl rfl ?_
  refine steps_succ_of_exec .dXor (by decide) hr rfl rfl ?_
  refine steps_succ_of_exec .dCopyout (by decide) hr rfl (execDCopyout_next (h.blockInBuffer rfl rfl)) ?_
  refine steps_succ_of_exec .dChain (by decide) hr rfl rfl ?_
  refine steps_succ_of_exec .rNext (by decide) hr rfl rfl ?_
  simp only [State.decryptBlock, State.setPhase, State.blockIndex, Reg.value_bits, h.phase]

/-- The micro-steps of `n` blocks of ENCRYPT are its loop. -/
theorem State.BlocksLeft.steps_encryptBlocks {s : State} {n k : Nat} (h : s.BlocksLeft 0x8#4 n) :
    steps (k + 9 * n) s = steps k (State.encryptBlocks n s) ∧
      (State.encryptBlocks n s).BlocksLeft 0x8#4 0 := by
  induction n generalizing s with
  | zero => exact ⟨rfl, h⟩
  | succ n ih =>
    obtain ⟨hrest, hdone⟩ := ih h.encryptBlock
    exact ⟨(h.steps_encryptBlock (k := k + 9 * n)).trans hrest, hdone⟩

/-- The micro-steps of `n` blocks of DECRYPT are its loop. -/
theorem State.BlocksLeft.steps_decryptBlocks {s : State} {n k : Nat} (h : s.BlocksLeft 0x9#4 n) :
    steps (k + 9 * n) s = steps k (State.decryptBlocks n s) ∧
      (State.decryptBlocks n s).BlocksLeft 0x9#4 0 := by
  induction n generalizing s with
  | zero => exact ⟨rfl, h⟩
  | succ n ih =>
    obtain ⟨hrest, hdone⟩ := ih h.decryptBlock
    exact ⟨(h.steps_decryptBlock (k := k + 9 * n)).trans hrest, hdone⟩

/-! ### R_CHECK and R_INIT -/

theorem State.inputLen_of_encrypt {s : State} (hop : s.op.bits = 0x8#4) : s.inputLen = s.ptLen := if_pos hop

theorem State.inputLen_of_decrypt {s : State} (hop : s.op.bits = 0x9#4) : s.inputLen = s.ctLen :=
  if_neg (by rw [hop]; decide)

/-- R_CHECK of an ENCRYPT or a DECRYPT (R185): the tests of the command level in the same order. -/
theorem execRCheck_of_run {s : State} (hop : s.op.bits = 0x8#4 ∨ s.op.bits = 0x9#4) :
    execRCheck s = .next
      (if s.ivLen = 0#32 ∨ s.keyLen = 0#32 ∨ s.inputLen = 0#32 then s.fail .precond
       else if s.maxLen < s.inputLen.toNat then s.fail .capacity
       else s.setPhase 3#5) := by
  have hsel : ¬ 2 ≤ (s.op.bits.extractLsb' 0 3).toNat := by
    rcases hop with h | h <;> rw [h] <;> decide
  have hunset : s.unset = true ↔ s.ivLen = 0#32 ∨ s.keyLen = 0#32 ∨ s.inputLen = 0#32 := by
    simp [State.unset, or_assoc]
  rw [execRCheck, if_neg hsel]
  simp only [hunset, State.setPhase]

/-- A test of R_CHECK fails (R185, R182). -/
def State.Rejected (s : State) : Prop :=
  s.ivLen = 0#32 ∨ s.keyLen = 0#32 ∨ s.inputLen = 0#32 ∨ s.maxLen < s.inputLen.toNat

theorem State.not_rejected_iff {s : State} :
    ¬ s.Rejected ↔
      ¬(s.ivLen = 0#32 ∨ s.keyLen = 0#32 ∨ s.inputLen = 0#32) ∧ ¬ s.maxLen < s.inputLen.toNat := by
  simp only [State.Rejected]
  tauto

theorem blockCount_toNat (l : Len) : (blockCount l).toNat = l.toNat / 32 := BitVec.toNat_udiv

/-- What R_INIT puts into the counters that the loop test reads (R186), and that OP stays. -/
theorem State.initRun_counters (s : State) :
    s.initRun.blkcnt = .value 0#32 ∧ s.initRun.nmemb = .value (blockCount s.inputLen) ∧ s.initRun.op = s.op := by
  rw [State.initRun]
  split <;> exact ⟨rfl, rfl, rfl⟩

/-- An input text that fits has all its blocks inside the buffers. -/
theorem State.blocksLeft_initRun {s : State} (hr : s.resetIn = false) (hfits : s.inputLen.toNat ≤ s.maxLen) :
    (s.initRun.setPhase 4#5).BlocksLeft s.op.bits (s.inputLen.toNat / 32) := by
  obtain ⟨hblkcnt, hnmemb, hop⟩ := s.initRun_counters
  obtain ⟨hmax, _, hreset⟩ := s.sameSettings_initRun
  have hn : s.initRun.nmemb.bits.toNat = s.inputLen.toNat / 32 := by
    rw [hnmemb, Reg.value_bits, blockCount_toNat]
  have hword : s.inputLen.toNat < 2 ^ 32 := s.inputLen.isLt
  refine ⟨hreset.trans hr, rfl, congrArg Reg.bits hop, ?_, ?_, ?_⟩
  · show s.initRun.blkcnt.bits.toNat + _ = s.initRun.nmemb.bits.toNat
    rw [hblkcnt, hn]
    exact Nat.zero_add _
  · show 32 * s.initRun.nmemb.bits.toNat ≤ s.initRun.maxLen
    omega
  · show 32 * s.initRun.nmemb.bits.toNat < 2 ^ 32
    omega

/-- An accepted run goes through R_CHECK and R_INIT to the loop test. -/
theorem steps_to_loop {s : State} {k : Nat} (hr : s.resetIn = false) (hp : s.phase = 2#5)
    (hop : s.op.bits = 0x8#4 ∨ s.op.bits = 0x9#4) (hacc : ¬ s.Rejected) :
    steps (k + 2) s = steps k (s.initRun.setPhase 4#5) := by
  obtain ⟨hset, hfits⟩ := State.not_rejected_iff.mp hacc
  have hcheck : execRCheck s = .next (s.setPhase 3#5) := by
    rw [execRCheck_of_run hop, if_neg hset, if_neg hfits]
  refine steps_succ_of_exec .rCheck (by decide) hr (by rw [hp]; rfl) hcheck ?_
  refine steps_succ_of_exec .rInit (by decide) hr rfl rfl ?_
  rw [State.initRun_setPhase]
  rfl

/-! ### R_DONE and D_STRIP -/

theorem State.finishRun_setPhase (p : PhaseCode) (s : State) : (s.setPhase p).finishRun = s.finishRun := by
  rw [State.finishRun, State.finishRun]
  split <;> simp_all [State.setPhase, State.complete]

theorem State.finishRun_of_encrypt {s : State} (hop : s.op.bits = 0x8#4) :
    s.finishRun = ({ s with ctLen := s.outlen.bits } : State).done false s.outlen.bits := by
  simp [State.finishRun, padUnderflow, hop]

theorem State.finishRun_of_decrypt {s : State} (hop : s.op.bits = 0x9#4) :
    s.finishRun = ({ s with ptLen := s.outlen.bits } : State).done
      (decide (s.total.bits.toNat < s.padcnt.bits.toNat)) s.outlen.bits := by
  simp [State.finishRun, padUnderflow, hop]

/-- STRIP leaves OP alone. -/
theorem State.strip_op {s t : State} (h : s.strip = .next t) : t.op = s.op := by
  rcases s.strip_cases with ⟨_, e⟩ | ⟨_, e⟩ <;> rw [e] at h <;> cases h
  rfl

/-- Where the strip goes on, D_STRIP does so in any PHASE and hands over to R_DONE (R204). -/
theorem execDStrip_setPhase_of_next {s t : State} (p : PhaseCode) (h : s.strip = .next t) :
    execDStrip (s.setPhase p) = .next (t.setPhase 21#5) := by
  rcases s.strip_cases with ⟨hlast, e⟩ | ⟨_, e⟩ <;> rw [e] at h <;> cases h
  have hstrip : (s.setPhase p).strip = _ := if_pos hlast
  rw [execDStrip, hstrip]
  rfl

/-- Where the strip faults, D_STRIP does so in any PHASE (R204). -/
theorem execDStrip_setPhase_of_fault {s : State} {r : Fault} (p : PhaseCode) (h : s.strip = .fault r) :
    execDStrip (s.setPhase p) = .fault r := by
  rcases s.strip_cases with ⟨_, e⟩ | ⟨hlast, e⟩ <;> rw [e] at h <;> cases h
  have hstrip : (s.setPhase p).strip = _ := if_neg (Nat.not_lt.mpr hlast)
  rw [execDStrip, hstrip]
  rfl

/-! ### The whole run from R_CHECK on -/

/-- ENCRYPT that R_CHECK rejects: one micro-step. -/
theorem steps_encrypt_of_rejected {s : State} (hr : s.resetIn = false) (hp : s.phase = 2#5)
    (hop : s.op.bits = 0x8#4) (hrej : s.Rejected) : steps 1 s = .next s.encryptCall := by
  have hcheck : execRCheck s = .next s.encryptCall := by
    rw [execRCheck_of_run (.inl hop), State.encryptCall, State.inputLen_of_encrypt hop]
    split_ifs with hset hfits
    · rfl
    · rfl
    · rw [← State.inputLen_of_encrypt hop] at hset hfits
      exact absurd hrej (State.not_rejected_iff.mpr ⟨hset, hfits⟩)
  rw [steps_one, step_of_microstep (i := .rCheck) (by decide) hr (by rw [hp]; rfl)]
  exact hcheck

/-- DECRYPT that R_CHECK rejects: one micro-step. -/
theorem steps_decrypt_of_rejected {s : State} (hr : s.resetIn = false) (hp : s.phase = 2#5)
    (hop : s.op.bits = 0x9#4) (hrej : s.Rejected) : steps 1 s = s.decryptCall := by
  have hcheck : execRCheck s = s.decryptCall := by
    rw [execRCheck_of_run (.inr hop), State.decryptCall, State.inputLen_of_decrypt hop]
    split_ifs with hset hfits
    · rfl
    · rfl
    · rw [← State.inputLen_of_decrypt hop] at hset hfits
      exact absurd hrej (State.not_rejected_iff.mpr ⟨hset, hfits⟩)
  rw [steps_one, step_of_microstep (i := .rCheck) (by decide) hr (by rw [hp]; rfl)]
  exact hcheck

/-- ENCRYPT that R_CHECK accepts: R_CHECK, R_INIT, nine micro-steps a block, R_TEST and R_DONE (R208). -/
theorem steps_encrypt_of_accepted {s : State} (hr : s.resetIn = false) (hp : s.phase = 2#5)
    (hop : s.op.bits = 0x8#4) (hacc : ¬ s.Rejected) :
    steps (4 + 9 * (s.ptLen.toNat / 32)) s = .next s.encryptCall := by
  obtain ⟨hset, hfits⟩ := State.not_rejected_iff.mp hacc
  have hleft := State.blocksLeft_initRun hr (Nat.not_lt.mp hfits)
  rw [hop] at hleft
  rw [State.inputLen_of_encrypt hop] at hset hfits hleft
  obtain ⟨hloop, hdone⟩ := hleft.steps_encryptBlocks (k := 2)
  rw [State.encryptBlocks_setPhase] at hloop hdone
  calc steps (4 + 9 * (s.ptLen.toNat / 32)) s
    _ = steps (2 + 9 * (s.ptLen.toNat / 32)) (s.initRun.setPhase 4#5) := by
      rw [Nat.add_right_comm 2 2]
      exact steps_to_loop hr hp (.inl hop) hacc
    _ = _ := hloop
    _ = _ := hdone.steps_leave
    _ = .next (State.encryptBlocks (s.ptLen.toNat / 32) s.initRun).finishRun := by
      refine steps_succ_of_exec .rDone (by decide) hdone.released rfl rfl ?_
      rw [State.finishRun_setPhase, State.finishRun_setPhase]
      rfl
    _ = .next s.encryptCall := by
      have hop' : (State.encryptBlocks (s.ptLen.toNat / 32) s.initRun).op.bits = 0x8#4 := hdone.op
      rw [State.finishRun_of_encrypt hop', State.encryptCall, if_neg hset, if_neg hfits, blockCount_toNat]

/-- DECRYPT that R_CHECK accepts: one micro-step more, D_STRIP (R208). -/
theorem steps_decrypt_of_accepted {s : State} (hr : s.resetIn = false) (hp : s.phase = 2#5)
    (hop : s.op.bits = 0x9#4) (hacc : ¬ s.Rejected) :
    steps (5 + 9 * (s.ctLen.toNat / 32)) s = s.decryptCall := by
  obtain ⟨hset, hfits⟩ := State.not_rejected_iff.mp hacc
  have hleft := State.blocksLeft_initRun hr (Nat.not_lt.mp hfits)
  rw [hop] at hleft
  rw [State.inputLen_of_decrypt hop] at hset hfits hleft
  obtain ⟨hloop, hdone⟩ := hleft.steps_decryptBlocks (k := 3)
  rw [State.decryptBlocks_setPhase] at hloop hdone
  calc steps (5 + 9 * (s.ctLen.toNat / 32)) s
    _ = steps (3 + 9 * (s.ctLen.toNat / 32)) (s.initRun.setPhase 4#5) := by
      rw [Nat.add_right_comm 3 2]
      exact steps_to_loop hr hp (.inr hop) hacc
    _ = _ := hloop
    _ = _ := hdone.steps_leave
    _ = s.decryptCall := ?_
  generalize hv : State.decryptBlocks (s.ctLen.toNat / 32) s.initRun = v at hdone
  have hr' : v.resetIn = false := hdone.released
  show steps 2 (v.setPhase 20#5) = _
  rcases s.decryptCall_cases with ⟨hunset, _⟩ | ⟨_, hlong, _⟩ | ⟨_, _, ⟨t, hstrip, hcall⟩ | ⟨r, hstrip, hcall⟩⟩
  · exact absurd hunset hset
  · exact absurd hlong hfits
  · rw [blockCount_toNat, hv] at hstrip
    have hop' : t.op.bits = 0x9#4 := (congrArg Reg.bits (State.strip_op hstrip)).trans hdone.op
    have hrt : t.resetIn = false := (State.keepsSettings_strip v t hstrip).resetIn.trans hr'
    refine steps_succ_of_exec .dStrip (by decide) hr' rfl
      (execDStrip_setPhase_of_next 20#5 hstrip) ?_
    refine steps_succ_of_exec .rDone (by decide) hrt rfl rfl ?_
    rw [State.finishRun_setPhase, State.finishRun_of_decrypt hop', hcall]
    rfl
  · rw [blockCount_toNat, hv] at hstrip
    rw [hcall]
    exact steps_succ_of_exec_fault .dStrip (by decide) hr' rfl (execDStrip_setPhase_of_fault 20#5 hstrip)

/-- Settles O55: the acceptance, then the run from R_CHECK on. -/
theorem microStepsReachTheCommandState : Obligations.MicroStepsReachTheCommandState := by
  intro s h rest hr hp hl hc
  refine ⟨fun hop => ?_, fun hop => ?_⟩
  · have haccept (k : Nat) : steps (1 + k) s = steps k (s.acceptRun 0x8#4 (lenField h) rest) := by
      rw [Nat.add_comm, steps_succ_of_accept hr hp hl hc (by rw [hop]; decide), hop]
    refine ⟨fun hrej => ?_, fun hacc => ?_⟩ <;> rw [haccept]
    · exact steps_encrypt_of_rejected (s := s.acceptRun 0x8#4 (lenField h) rest) hr rfl rfl hrej
    · exact steps_encrypt_of_accepted (s := s.acceptRun 0x8#4 (lenField h) rest) hr rfl rfl hacc
  · have haccept (k : Nat) : steps (1 + k) s = steps k (s.acceptRun 0x9#4 (lenField h) rest) := by
      rw [Nat.add_comm, steps_succ_of_accept hr hp hl hc (by rw [hop]; decide), hop]
    refine ⟨fun hrej => ?_, fun hacc => ?_⟩ <;> rw [haccept]
    · exact steps_decrypt_of_rejected (s := s.acceptRun 0x9#4 (lenField h) rest) hr rfl rfl hrej
    · exact steps_decrypt_of_accepted (s := s.acceptRun 0x9#4 (lenField h) rest) hr rfl rfl hacc

end Sys2Proof.Machine
end

section
/-! Under the invariant no step stops: every block access and the strip stay inside the buffers (R63), and PHASE
names a micro-step (R99). -/

namespace Sys2Proof.Machine

/-! ### PHASE names a micro-step -/

/-- The micro-step that a PHASE code names is encoded as that code (R99). -/
theorem encode_of_decodePhase {p : PhaseCode} {i : Instr} (h : decodePhase p = .ok i) : encode i = .phase p := by
  have hall : ∀ q : PhaseCode, (decodePhase q).toOption.all (fun j => encode j = .phase q) = true := by decide
  simpa [h, Except.toOption] using hall p

/-- Every code below 22 names a micro-step (R99). -/
theorem decodePhase_of_lt {p : PhaseCode} (h : p.toNat < 22) : ∃ i, decodePhase p = .ok i := by
  have hall : ∀ q : PhaseCode, q.toNat < 22 → (decodePhase q).isOk = true := by decide
  have hok := hall p h
  cases hd : decodePhase p with
  | ok i => exact ⟨i, rfl⟩
  | error e => simp [hd, Except.isOk, Except.toBool] at hok

theorem State.PhaseInv.phase_lt {s : State} (h : s.PhaseInv) : s.phase.toNat < 22 := by
  rw [State.PhaseInv] at h
  split at h
  case h_23 => exact h.elim
  all_goals omega

/-! ### The strip -/

/-- The strip of a text of at least one block that fits reads an index PT has (R214). -/
theorem State.strip_next_of_total {s : State} {l : Len} (htotal : s.total.bits = totalBytes l)
    (hblock : 32 ≤ l.toNat) (hfits : l.toNat ≤ s.maxLen) : ∃ t, s.strip = .next t := by
  rcases s.strip_cases with ⟨_, e⟩ | ⟨hout, _⟩
  · exact ⟨_, e⟩
  · have htot : (totalBytes l).toNat = l.toNat / 32 * 32 := by
      rw [totalBytes, BitVec.toNat_mul, blockCount_toNat]
      exact Nat.mod_eq_of_lt (show l.toNat / 32 * 32 < 2 ^ 32 by omega)
    rw [htotal] at hout
    have hlast : (totalBytes l - 1#32).toNat = l.toNat / 32 * 32 - 1 := by bv_omega
    omega

theorem State.initRun_total (s : State) : s.initRun.total = .value (totalBytes s.inputLen) := by
  rw [State.initRun]
  split <;> rfl

theorem State.decryptBlocks_total (n : Nat) (s : State) : (State.decryptBlocks n s).total = s.total :=
  State.decryptBlocks_induct (P := fun t => t.total = s.total)
    (fun t h => by rw [t.decryptBlock_frame]; exact h) n s rfl

/-- A CT_LEN that R36 item 3 allows lets DECRYPT go on (R181). -/
theorem State.decryptCall_next {s : State} (hop : s.op.bits = 0x9#4)
    (hct : s.ctLen = 0#32 ∨ 32 ≤ s.ctLen.toNat) : ∃ t, s.decryptCall = .next t := by
  rcases s.decryptCall_cases with ⟨_, e⟩ | ⟨_, _, e⟩ | ⟨hset, hfits, ⟨_, _, e⟩ | ⟨r, hfault, _⟩⟩
  · exact ⟨_, e⟩
  · exact ⟨_, e⟩
  · exact ⟨_, e⟩
  · have hblock : 32 ≤ s.ctLen.toNat := hct.resolve_left fun h0 => hset (.inr (.inr h0))
    have hmax := s.sameSettings_initRun.trans (State.sameSettings_decryptBlocks (blockCount s.ctLen).toNat _)
    have htotal : (State.decryptBlocks (blockCount s.ctLen).toNat s.initRun).total.bits = totalBytes s.ctLen := by
      rw [State.decryptBlocks_total, State.initRun_total, State.inputLen_of_decrypt hop, Reg.value_bits]
    obtain ⟨t, hnext⟩ := State.strip_next_of_total htotal hblock (by rw [hmax.maxLen]; exact hfits)
    rw [hnext] at hfault
    cases hfault

/-! ### Commands -/

/-- Every command goes on where CT_LEN is one that R36 item 3 allows. -/
theorem exec_decodeOp_next (op : BitVec 4) (len : Len) {s : State} (hct : s.ctLen = 0#32 ∨ 32 ≤ s.ctLen.toNat) :
    ∃ t, exec (decodeOp op len) s = .next t := by
  by_cases hop : op.getLsbD 3 = false
  · rw [exec_decodeOp_of_update op len s hop]
    exact ⟨_, rfl⟩
  · have hcodes : op = 9#4 ∨ op = 8#4 ∨ op = 10#4 ∨ op = 11#4 ∨ op = 12#4 ∨ op = 13#4 ∨ op = 14#4 ∨ op = 15#4 := by
      revert op; decide
    rcases hcodes with rfl | rfl | rfl | rfl | rfl | rfl | rfl | rfl
    · exact State.decryptCall_next (s := s.latch 0x9#4 len 2#5) rfl hct
    all_goals exact ⟨_, rfl⟩

/-! ### Micro-steps -/

/-- In the body of the loop the current block lies inside the buffers (R63). -/
theorem State.BodyInv.blockInBuffer {s : State} {op : BitVec 4} (h : s.BodyInv op) :
    s.blockInBuffer s.blockIndex = true := by
  obtain ⟨_, hloop, hinside, _, _⟩ := h
  have hfits := hloop.checked.inputFits
  have hword : s.inputLen.toNat < 2 ^ 32 := s.inputLen.isLt
  have hn : s.nmemb.bits.toNat = s.inputLen.toNat / 32 := by
    rw [hloop.nmemb, Reg.value_bits, blockCount_toNat]
  have hleft : ({ s with resetIn := false, phase := 4#5 } : State).BlocksLeft s.op.bits
      (s.nmemb.bits.toNat - s.blkcnt.bits.toNat - 1 + 1) := by
    refine ⟨rfl, rfl, rfl, ?_, ?_, ?_⟩ <;> dsimp only <;> omega
  exact hleft.blockInBuffer rfl rfl

/-- After the loop of a DECRYPT the strip stays inside PT (R204, R36 item 3). -/
theorem State.LoopDone.strip_next {s : State} (h : s.LoopDone 0x9#4) (hct : s.ctLen = 0#32 ∨ 32 ≤ s.ctLen.toNat) :
    ∃ t, s.strip = .next t := by
  obtain ⟨hop, hloop, _⟩ := h
  have hinput : s.inputLen = s.ctLen := State.inputLen_of_decrypt (congrArg Reg.bits hop)
  have hblock : 32 ≤ s.inputLen.toNat := by
    rw [← hinput] at hct
    exact hct.resolve_left hloop.checked.inputSet
  exact State.strip_next_of_total (congrArg Reg.bits hloop.total) hblock hloop.checked.inputFits

/-- Under the invariant the micro-step of PHASE goes on. -/
theorem State.Inv.exec_next {s : State} (h : s.Inv) {i : Instr} (hd : decodePhase s.phase = .ok i) :
    ∃ t, exec i s = .next t := by
  obtain ⟨hcontext, hphase⟩ := h
  have hcode := encode_of_decodePhase hd
  rw [State.PhaseInv] at hphase
  cases i with
  | setIv | setKey | setPlaintext | setCiphertext | updOther | encrypt | decrypt | runRsvdLow | runRsvdHigh =>
    cases hcode
  | idle =>
    show ∃ t, execIdle s = .next t
    rw [execIdle]
    split <;> exact ⟨_, rfl⟩
  | eCopyin =>
    have hp : 5#5 = s.phase := Code.phase.inj hcode
    have hbody : s.BodyInv 0x8#4 := by simpa [← hp] using hphase
    exact ⟨_, execECopyin_next hbody.blockInBuffer⟩
  | eCopyout =>
    have hp : 11#5 = s.phase := Code.phase.inj hcode
    obtain ⟨hbody, _⟩ : s.BodyInv 0x8#4 ∧ s.out.held = true := by simpa [← hp] using hphase
    exact ⟨_, execECopyout_next hbody.blockInBuffer⟩
  | dCopyin =>
    have hp : 12#5 = s.phase := Code.phase.inj hcode
    have hbody : s.BodyInv 0x9#4 := by simpa [← hp] using hphase
    exact ⟨_, execDCopyin_next hbody.blockInBuffer⟩
  | dCopyout =>
    have hp : 17#5 = s.phase := Code.phase.inj hcode
    obtain ⟨hbody, _⟩ : s.BodyInv 0x9#4 ∧ s.fed.held = true ∧ s.out.held = true := by simpa [← hp] using hphase
    exact ⟨_, execDCopyout_next hbody.blockInBuffer⟩
  | dStrip =>
    have hp : 20#5 = s.phase := Code.phase.inj hcode
    obtain ⟨hdone, _⟩ : s.LoopDone 0x9#4 ∧ s.outlen.bits = s.total.bits := by simpa [← hp] using hphase
    obtain ⟨t, ht⟩ := hdone.strip_next (hcontext.ctLen.imp_right And.left)
    exact ⟨_, execDStrip_setPhase_of_next s.phase ht⟩
  | upd | rCheck | rInit | rTest | eXor | eChain | eLoad | ePerm | eExport | dLoad | dInvperm | dExport | dXor
  | dChain | rNext | rDone => exact ⟨_, rfl⟩

/-- Settles O13, by what the step runs: reset, a command, or the micro-step of PHASE. -/
theorem noStepStopsUnderTheInvariant : Obligations.NoStepStopsUnderTheInvariant := by
  intro s h
  rcases step_cases s with ⟨_, e⟩ | ⟨_, hd, rest, _, _, _, e⟩ | ⟨_, _, ⟨i, hi, e⟩ | ⟨r, hr, _⟩⟩
  · exact ⟨_, e⟩
  · rw [e]
    exact exec_decodeOp_next _ _ (h.context.ctLen.imp_right And.left)
  · rw [e]
    exact h.exec_next hi
  · obtain ⟨i, hi⟩ := decodePhase_of_lt h.phase.phase_lt
    rw [hi] at hr
    cases hr

end Sys2Proof.Machine
end

section
/-! Host reads, space by space (R60, R66). -/

namespace Sys2Proof.Machine

theorem State.hostRead_status (s : State) : s.hostRead 0#2 0#32 = .ok s.statusWord := rfl

/-- While busy every read but that of STATUS is refused (R66 item 2). -/
theorem State.hostRead_of_busy {s : State} (hp : s.phase ≠ 0#5) {space : BitVec 2} {index : Len}
    (hn : ¬(space = 0#2 ∧ index = 0#32)) : s.hostRead space index = .error .busy := by
  have hb : s.busy = true := bne_iff_ne.mpr hp
  rw [State.hostRead, if_neg hn, if_pos hb]

/-! ### In IDLE -/

section Idle

variable {s : State} (hp : s.phase = 0#5)
include hp

theorem State.not_busy_of_idle : ¬ s.busy = true := by
  simp [State.busy, hp]

/-- CSR 1 and above (R34). -/
theorem State.hostRead_csr {index : Len} (hi : index ≠ 0#32) : s.hostRead 0#2 index = s.readCsr index.toNat := by
  rw [State.hostRead, if_neg (fun h => hi h.2), if_neg (State.not_busy_of_idle hp), if_pos rfl]

theorem State.hostRead_pt (index : Len) : s.hostRead 1#2 index = readBuffer s.maxLen s.pt s.ptExt index.toNat := by
  rw [State.hostRead, if_neg (fun h => absurd h.1 (by decide)), if_neg (State.not_busy_of_idle hp)]
  rfl

theorem State.hostRead_ct (index : Len) : s.hostRead 2#2 index = readBuffer s.maxLen s.ct s.ctExt index.toNat := by
  rw [State.hostRead, if_neg (fun h => absurd h.1 (by decide)), if_neg (State.not_busy_of_idle hp)]
  rfl

theorem State.hostRead_keyround (index : Len) : s.hostRead 3#2 index = readKeyround s.keyround index.toNat := by
  rw [State.hostRead, if_neg (fun h => absurd h.1 (by decide)), if_neg (State.not_busy_of_idle hp)]
  rfl

end Idle

/-! ### One space -/

/-- No CSR 6 and above (R34, R66 item 3). -/
theorem State.readCsr_of_le (s : State) {n : Nat} (h : 6 ≤ n) : s.readCsr n = .error .noSuchIndex := by
  obtain ⟨k, rfl⟩ := Nat.exists_eq_add_of_le' h
  rfl

/-- An index a buffer memory does not have (R66 item 3). -/
theorem readBuffer_of_outside {maxLen n : Nat} (m : Memory) (ext : Len) (h : maxLen ≤ n) :
    readBuffer maxLen m ext n = .error .noSuchIndex := if_pos h

/-- A byte at or above the extent (R66 item 4). -/
theorem readBuffer_of_noValue {maxLen n : Nat} (m : Memory) {ext : Len} (h : n < maxLen) (he : ext.toNat ≤ n) :
    readBuffer maxLen m ext n = .error .noValue := by
  rw [readBuffer, if_neg (Nat.not_le.mpr h), if_pos he]

/-- A byte below the extent that holds a value. -/
theorem readBuffer_of_lookup {maxLen n : Nat} {m : Memory} {ext : Len} {b : Byte} (h : n < maxLen)
    (he : n < ext.toNat) (hb : m.lookup n = some b) : readBuffer maxLen m ext n = .ok (b.setWidth 32) := by
  rw [readBuffer, if_neg (Nat.not_le.mpr h), if_neg (Nat.not_le.mpr he), hb]

/-- KEYROUND has 32 bytes (R66 item 3). -/
theorem readKeyround_of_outside (r : Reg Block) {n : Nat} (h : 32 ≤ n) :
    readKeyround r n = .error .noSuchIndex := dif_neg (Nat.not_lt.mpr h)

theorem readKeyround_of_noValue {r : Reg Block} {n : Nat} (h : n < 32) (hr : r.held = false) :
    readKeyround r n = .error .noValue := by
  rw [readKeyround, dif_pos h, hr]
  rfl

theorem readKeyround_of_held {r : Reg Block} {n : Nat} (h : n < 32) (hr : r.held = true) :
    readKeyround r n = .ok ((r.bits[n]).setWidth 32) := by
  rw [readKeyround, dif_pos h, if_pos hr]

/-- Settles O21: the space, then the index in it. -/
theorem hostReadsFollowTheReadRules : Obligations.HostReadsFollowTheReadRules := by
  refine fun s => ⟨fun index => ⟨s.hostRead_status, fun hp space hn => State.hostRead_of_busy hp hn⟩, fun hp => ?_⟩
  have hcsr {index : Len} := State.hostRead_csr hp (index := index)
  refine ⟨hcsr (by decide), hcsr (by decide), hcsr (by decide), hcsr (by decide), hcsr (by decide),
    fun index h6 => ?_, fun index => ?_⟩
  · have hne : index ≠ 0#32 := by
      rintro rfl
      exact absurd h6 (by decide)
    rw [hcsr hne, s.readCsr_of_le h6]
  · rw [State.hostRead_pt hp, State.hostRead_ct hp, State.hostRead_keyround hp]
    exact ⟨fun h => ⟨readBuffer_of_outside _ _ h, readBuffer_of_outside _ _ h⟩,
      readBuffer_of_noValue _, readBuffer_of_noValue _,
      fun _ => readBuffer_of_lookup, fun _ => readBuffer_of_lookup,
      readKeyround_of_outside _, fun h => ⟨readKeyround_of_noValue h, readKeyround_of_held h⟩⟩

end Sys2Proof.Machine
end

section
/-! The text updates with their payload on the port (R123, R124, R126). -/

namespace Sys2Proof.Machine

/-- `MemWrite` at index 0 of a buffer that was just allocated: the bytes written and nothing else (R15, R74). -/
theorem Memory.lookup_writeBytes_nil (bs : List Byte) (a : Nat) :
    (Memory.writeBytes [] 0 bs).lookup a = bs[a]? := by
  rw [Memory.lookup_writeBytes, Memory.lookup_nil, Nat.zero_add, Nat.sub_zero]
  split_ifs with h
  · rfl
  · exact (List.getElem?_eq_none (by omega)).symm

section Payload

variable {s : State} {bs rest : List Byte} (hshort : 32 ≤ s.lenop.bits.toNat) (hfits : s.lenop.bits.toNat ≤ s.maxLen)
  (hlen : bs.length = s.lenop.bits.toNat) (hpay : s.payPort = bs ++ rest)
include hshort hfits hlen hpay

/-- SET_PLAINTEXT of a legal length with its payload there (R123). -/
theorem State.updatePlaintext_of_payload :
    s.updatePlaintext =
      ({ s with payPort := rest, pt := Memory.writeBytes [] 0 bs, ptExt := s.lenop.bits, ptLen := s.lenop.bits } :
        State).done false 1#32 := by
  rcases s.updatePlaintext_cases with ⟨h, _⟩ | ⟨_, h, _⟩ | ⟨_, _, ⟨h, _⟩ | ⟨bs', rest', hlen', hpay', e⟩⟩
  · omega
  · omega
  · rw [hpay, List.length_append] at h
    omega
  · obtain ⟨rfl, rfl⟩ := List.append_inj (hpay.symm.trans hpay') (hlen.trans hlen'.symm)
    exact e

/-- SET_CIPHERTEXT of a legal length with its payload there (R124). -/
theorem State.updateCiphertext_of_payload :
    s.updateCiphertext =
      ({ s with payPort := rest, ct := Memory.writeBytes [] 0 bs, ctExt := s.lenop.bits, ctLen := s.lenop.bits } :
        State).done false 1#32 := by
  rcases s.updateCiphertext_cases with ⟨h, _⟩ | ⟨_, h, _⟩ | ⟨_, _, ⟨h, _⟩ | ⟨bs', rest', hlen', hpay', e⟩⟩
  · omega
  · omega
  · rw [hpay, List.length_append] at h
    omega
  · obtain ⟨rfl, rfl⟩ := List.append_inj (hpay.symm.trans hpay') (hlen.trans hlen'.symm)
    exact e

end Payload

/-- Settles O25: the update of the latched state, and what the freshly allocated PT holds. -/
theorem setPlaintextStoresTheText : Obligations.SetPlaintextStoresTheText := by
  intro len s bs rest hshort hfits hlen hpay
  have hupdate := State.updatePlaintext_of_payload (s := s.latch 0x2#4 len 1#5) hshort hfits hlen hpay
  exact ⟨_, congrArg Host.Outcome.next hupdate, rfl, Memory.lookup_writeBytes_nil bs,
    Memory.wf_writeBytes Memory.wf_nil 0 bs⟩

/-- Settles O26, as O25 with CT: nothing is written at index `len` (R77). -/
theorem setCiphertextStoresTheText : Obligations.SetCiphertextStoresTheText := by
  intro len s bs rest hshort hfits hlen hpay
  have hupdate := State.updateCiphertext_of_payload (s := s.latch 0x3#4 len 1#5) hshort hfits hlen hpay
  exact ⟨_, congrArg Host.Outcome.next hupdate, rfl, Memory.lookup_writeBytes_nil bs,
    Memory.wf_writeBytes Memory.wf_nil 0 bs⟩

end Sys2Proof.Machine
end

section
/-! The decoder and the encoder as inverses of each other (R90, R92, R99), the payload length of an operation code
(R93) and the packets of the textual lines (R101). -/

namespace Sys2Proof

open Laws.RoundTrip (opField_headerOf lenField_headerOf)

/-! ### Headers -/

/-- A header is its two fields: they cover all 36 bits (R90). -/
theorem headerOf_fields (h : Header) : headerOf (opField h) (lenField h) = h := by
  ext k hk
  rw [headerOf, BitVec.getElem_append]
  split
  case isTrue hlow => rw [lenField, BitVec.getElem_extractLsb', Nat.zero_add, BitVec.getLsbD_eq_getElem hk]
  case isFalse hhigh =>
    rw [opField, BitVec.getElem_extractLsb', Nat.add_sub_cancel' (by omega), BitVec.getLsbD_eq_getElem hk]

/-- The command of an operation code is encoded with that code, whichever of the 16 it is (R92). -/
theorem encode_decodeOp (op : BitVec 4) (len : Len) : encode (decodeOp op len) = .header (headerOf op len) := by
  have hcodes : ∀ n : Fin 16,
      encode (decodeOp (BitVec.ofFin n) len) = .header (headerOf (BitVec.ofFin n) len) := by
    intro n
    fin_cases n <;> rfl
  exact hcodes op.toFin

/-- Settles O1: the round trip of each command, and the codes of the micro-steps. -/
theorem decodeOfEncodeIsTheInstruction : Obligations.DecodeOfEncodeIsTheInstruction := by
  intro i
  cases i with
  | setIv len => exact Laws.RoundTrip.setIv len
  | setKey len => exact Laws.RoundTrip.setKey len
  | setPlaintext len => exact Laws.RoundTrip.setPlaintext len
  | setCiphertext len => exact Laws.RoundTrip.setCiphertext len
  | updOther mm len => exact Laws.RoundTrip.updOther mm len
  | encrypt len => exact Laws.RoundTrip.encrypt len
  | decrypt len => exact Laws.RoundTrip.decrypt len
  | runRsvdLow sel len => exact Laws.RoundTrip.runRsvdLow sel len
  | runRsvdHigh sel len => exact Laws.RoundTrip.runRsvdHigh sel len
  | idle | upd | rCheck | rInit | rTest | eCopyin | eXor | eChain | eLoad | ePerm | eExport | eCopyout | dCopyin
  | dLoad | dInvperm | dExport | dXor | dCopyout | dChain | rNext | dStrip | rDone => rfl

/-- Settles O2, by the kind of the code. -/
theorem encodeOfDecodeIsTheCode : Obligations.EncodeOfDecodeIsTheCode := by
  intro c i hd
  cases c with
  | header h =>
    obtain rfl : decodeHeader h = i := Except.ok.inj hd
    rw [decodeHeader, encode_decodeOp, headerOf_fields]
  | phase p => exact Machine.encode_of_decodePhase hd

/-- Settles O3: each word is evaluated. -/
theorem sampleWordsDecodeToTheirInstructions : Obligations.SampleWordsDecodeToTheirInstructions :=
  ⟨rfl, rfl, rfl, rfl, rfl, rfl, rfl, rfl, rfl, rfl, rfl, rfl⟩

/-! ### Operation codes and their payload -/

/-- The command of a header made of its fields (R91, R92). -/
theorem decodeHeader_headerOf (op : BitVec 4) (len : Len) : decodeHeader (headerOf op len) = decodeOp op len := by
  rw [decodeHeader, opField_headerOf, lenField_headerOf]

/-- The decoder's answer for the header of a command that the round trip gives back. -/
theorem decodeHeader_of_roundTrip {i : Instr} {h : Header} (hi : decode (encode i) = .ok i)
    (he : encode i = .header h) : decodeHeader h = i := by
  rw [he] at hi
  exact Except.ok.inj hi

/-- Above the four updates of R121 to R124 no command has a payload (R93). -/
theorem payloadBytes_eq_zero {op : BitVec 4} (hop : 4 ≤ op.toNat) (maxLen : Nat) (len : Len) :
    payloadBytes maxLen op len = 0 := by
  have hne (n : BitVec 4) (hn : n.toNat < 4) : op ≠ n := by
    rintro rfl
    omega
  rw [payloadBytes, if_neg (not_or_intro (hne _ (by decide)) (hne _ (by decide))),
    if_neg (not_or_intro (hne _ (by decide)) (hne _ (by decide)))]

theorem payloadBytes_updOther (maxLen : Nat) (mm : BitVec 2) (len : Len) :
    payloadBytes maxLen (0b01#2 ++ mm) len = 0 :=
  payloadBytes_eq_zero (by revert mm; decide) maxLen len

theorem payloadBytes_runRsvdLow (maxLen : Nat) (sel : BitVec 1) (len : Len) :
    payloadBytes maxLen (0b101#3 ++ sel) len = 0 :=
  payloadBytes_eq_zero (by revert sel; decide) maxLen len

theorem payloadBytes_runRsvdHigh (maxLen : Nat) (sel : BitVec 2) (len : Len) :
    payloadBytes maxLen (0b11#2 ++ sel) len = 0 :=
  payloadBytes_eq_zero (by revert sel; decide) maxLen len

/-- A text update has its `len` as payload if that is a legal length, and no payload else (R93). -/
theorem payloadBytes_text {op : BitVec 4} (hop : op = 0x2#4 ∨ op = 0x3#4) (maxLen : Nat) (len : Len) :
    payloadBytes maxLen op len = if 32 ≤ len.toNat ∧ len.toNat ≤ maxLen then len.toNat else 0 := by
  rcases hop with rfl | rfl <;> rfl

/-- Settles O4: the round trip of each command, and the payload of its code. -/
theorem everyOperationCodeHasItsMeaning : Obligations.EveryOperationCodeHasItsMeaning := by
  intro len maxLen
  have hround {i : Instr} {h : Header} := decodeHeader_of_roundTrip (h := h) (decodeOfEncodeIsTheInstruction i)
  exact ⟨⟨hround rfl, rfl⟩, ⟨hround rfl, rfl⟩, ⟨hround rfl, payloadBytes_text (.inl rfl) maxLen len⟩,
    ⟨hround rfl, payloadBytes_text (.inr rfl) maxLen len⟩,
    fun mm => ⟨hround rfl, payloadBytes_updOther maxLen mm len⟩, ⟨hround rfl, rfl⟩, ⟨hround rfl, rfl⟩,
    fun sel => ⟨hround rfl, payloadBytes_runRsvdLow maxLen sel len⟩,
    fun sel => ⟨hround rfl, payloadBytes_runRsvdHigh maxLen sel len⟩⟩

/-! ### Textual lines -/

/-- A packet made of header fields is well formed if its payload has the bytes these fields ask for (R93). -/
theorem wellFormed_of_length {maxLen : Nat} {op : BitVec 4} {len : Len} {payload : List Byte}
    (hlen : payload.length = payloadBytes maxLen op len) :
    Packet.wellFormed maxLen ⟨headerOf op len, payload⟩ = true := by
  rw [Packet.wellFormed, opField_headerOf, lenField_headerOf, hlen, beq_self_eq_true]

/-- The bytes of a text update are at most its `len` (R93). -/
theorem payloadBytes_le_len {op : BitVec 4} (hop : op = 2#4 ∨ op = 3#4) (maxLen : Nat) (len : Len) :
    payloadBytes maxLen op len ≤ len.toNat := by
  rw [payloadBytes_text hop]
  split <;> omega

/-- The packet of a text line is well formed: the text has all the bytes that are asked for (R101). -/
theorem wellFormed_textPacket {op : BitVec 4} (hop : op = 2#4 ∨ op = 3#4) (maxLen : Nat) {bytes : List Byte}
    (hlen : bytes.length < 2 ^ 32) : (textPacket maxLen op bytes).wellFormed maxLen = true := by
  refine wellFormed_of_length ?_
  have hle := payloadBytes_le_len hop maxLen (BitVec.ofNat 32 bytes.length)
  rw [BitVec.toNat_ofNat, Nat.mod_eq_of_lt hlen] at hle
  rw [List.length_take, Nat.min_eq_left hle]

/-- Settles O5, line by line. -/
theorem linesStandForWellFormedPackets : Obligations.LinesStandForWellFormedPackets := by
  intro maxLen l hl
  cases l with
  | setIv bytes | setKey bytes =>
    exact ⟨wellFormed_of_length bytes.size_toArray, decodeHeader_headerOf _ _⟩
  | setPlaintext bytes =>
    exact ⟨wellFormed_textPacket (.inl rfl) maxLen (of_decide_eq_true hl), decodeHeader_headerOf _ _⟩
  | setCiphertext bytes =>
    exact ⟨wellFormed_textPacket (.inr rfl) maxLen (of_decide_eq_true hl), decodeHeader_headerOf _ _⟩
  | encrypt | decrypt => exact ⟨wellFormed_of_length rfl, decodeHeader_headerOf _ _⟩
  | updOther m =>
    obtain ⟨hlow, hhigh⟩ : 4 ≤ m ∧ m ≤ 7 := of_decide_eq_true hl
    interval_cases m <;> exact ⟨wellFormed_of_length rfl, decodeHeader_headerOf _ _⟩
  | runRsvd m =>
    obtain ⟨hlow, hhigh⟩ : 10 ≤ m ∧ m ≤ 15 := of_decide_eq_true hl
    interval_cases m <;> exact ⟨wellFormed_of_length rfl, decodeHeader_headerOf _ _⟩

end Sys2Proof
end

section
/-! Updates that store or wait for their payload (R121 to R124, R103 item 2), commands that always fail (R125, R226),
and PHASE codes that name no micro-step (R99). -/

namespace Sys2Proof.Machine

/-! ### Storing the 32 bytes of IV and KEY -/

/-- A sound storage, or a fault that happens to leave the payload, stores the payload (R224). -/
theorem State.stored_eq {s : State} {b : Block} (h : s.storageFault = none ∨ s.storageFault = some b) :
    s.stored b = b := by
  rcases h with h | h <;> rw [State.stored, h]

/-- SET_IV with its payload there and stored (R121). -/
theorem State.updateIv_of_payload {s : State} {b : Block} {rest : List Byte} (hpay : s.payPort = b.toList ++ rest)
    (hstored : s.stored b = b) :
    s.updateIv =
      ({ s with payPort := rest, iv := .value b, storageFault := none, ivLen := 32#32 } : State).done false 1#32 := by
  simp only [State.updateIv, hpay, takeBlock_append, hstored, Reg.value_bits, ne_eq, not_true_eq_false, if_false]

/-- SET_KEY with its payload there and stored (R122). -/
theorem State.updateKey_of_payload {s : State} {b : Block} {rest : List Byte} (hpay : s.payPort = b.toList ++ rest)
    (hstored : s.stored b = b) :
    s.updateKey =
      ({ s with payPort := rest, key := .value b, storageFault := none, keyLen := 32#32 } : State).done false 1#32 := by
  simp only [State.updateKey, hpay, takeBlock_append, hstored, Reg.value_bits, ne_eq, not_true_eq_false, if_false]

/-- Settles O22: the update of the latched state. -/
theorem setIvAndSetKeyStoreThePayload : Obligations.SetIvAndSetKeyStoreThePayload := by
  intro len s b rest hpay hfault
  exact ⟨congrArg Host.Outcome.next
      (State.updateIv_of_payload (s := s.latch 0x0#4 len 1#5) hpay (State.stored_eq hfault)),
    congrArg Host.Outcome.next
      (State.updateKey_of_payload (s := s.latch 0x1#4 len 1#5) hpay (State.stored_eq hfault))⟩

/-! ### Waiting in UPD -/

theorem State.updateIv_of_short {s : State} (h : s.payPort.length < 32) : s.updateIv = s := by
  rw [State.updateIv, takeBlock_eq_none h]

theorem State.updateKey_of_short {s : State} (h : s.payPort.length < 32) : s.updateKey = s := by
  rw [State.updateKey, takeBlock_eq_none h]

section Waiting

variable {s : State} (hshort : 32 ≤ s.lenop.bits.toNat) (hfits : s.lenop.bits.toNat ≤ s.maxLen)
  (hwait : s.payPort.length < s.lenop.bits.toNat)
include hshort hfits hwait

theorem State.updatePlaintext_of_short : s.updatePlaintext = s := by
  rcases s.updatePlaintext_cases with ⟨h, _⟩ | ⟨_, h, _⟩ | ⟨_, _, ⟨_, e⟩ | ⟨bs, rest, hlen, hpay, _⟩⟩
  · omega
  · omega
  · exact e
  · rw [hpay, List.length_append] at hwait
    omega

theorem State.updateCiphertext_of_short : s.updateCiphertext = s := by
  rcases s.updateCiphertext_cases with ⟨h, _⟩ | ⟨_, h, _⟩ | ⟨_, _, ⟨_, e⟩ | ⟨bs, rest, hlen, hpay, _⟩⟩
  · omega
  · omega
  · exact e
  · rw [hpay, List.length_append] at hwait
    omega

end Waiting

/-- A reset in UPD takes the bytes delivered for the update off the payload port (R251). -/
theorem State.payloadAfterReset_eq_nil {s : State} (hp : s.phase = 1#5)
    (hlen : s.payPort.length ≤ payloadBytes s.maxLen s.op.bits s.lenop.bits) : s.payloadAfterReset = [] := by
  rw [State.payloadAfterReset_of_upd hp, List.drop_eq_nil_of_le hlen]

/-- Settles O24: the updates leave the latched state as it is, and the reset takes what was delivered. -/
theorem updatesWaitForTheirPayload : Obligations.UpdatesWaitForTheirPayload := by
  refine fun len s => ⟨fun hwait => ⟨?_, ?_⟩, fun hshort hfits hwait => ⟨?_, ?_⟩, fun hp hlen => ?_⟩
  · exact congrArg Host.Outcome.next (State.updateIv_of_short (s := s.latch 0x0#4 len 1#5) hwait)
  · exact congrArg Host.Outcome.next (State.updateKey_of_short (s := s.latch 0x1#4 len 1#5) hwait)
  · exact congrArg Host.Outcome.next
      (State.updatePlaintext_of_short (s := s.latch 0x2#4 len 1#5) hshort hfits hwait)
  · exact congrArg Host.Outcome.next
      (State.updateCiphertext_of_short (s := s.latch 0x3#4 len 1#5) hshort hfits hwait)
  · exact ⟨_, rfl, State.payloadAfterReset_eq_nil hp hlen, rfl, rfl⟩

/-! ### Commands that always fail -/

/-- RESULT of a failed update command (R230). -/
theorem failValue_of_update {op : BitVec 4} (h : op.getLsbD 3 = false) : failValue op = 0#32 := by
  rw [failValue, h]
  rfl

/-- RESULT of a failed run command (R230). -/
theorem failValue_of_run {op : BitVec 4} (h : op.getLsbD 3 = true) : failValue op = Config.sentinel := by
  rw [failValue, h]
  rfl

/-- A failure right after the acceptance of a packet: OP and LENOP are latched, and the completion reports the
cause (R90, R230). -/
theorem State.fail_latch (c : Cause) (op : BitVec 4) (len : Len) (p : PhaseCode) {v : Len} (hv : failValue op = v)
    (s : State) :
    (s.latch op len p).fail c = { s with
      op := ⟨op, true⟩, lenop := ⟨len, true⟩, phase := 0#5, status := ⟨false, c, false⟩, result := v
      respPort := s.respPort ++ [⟨false, v⟩] } := by
  subst hv
  rfl

/-- Settles O28: modes 4 to 7 have the class bit of an update. -/
theorem updOtherFailsBadMode : Obligations.UpdOtherFailsBadMode := by
  intro mm len s
  have hclass : (0b01#2 ++ mm).getLsbD 3 = false := by revert mm; decide
  exact congrArg Host.Outcome.next (State.fail_latch .badmode _ len 1#5 (failValue_of_update hclass) s)

/-- Settles O29: the reserved selectors have the class bit of a run command. -/
theorem runRsvdFailsBadCmd : Obligations.RunRsvdFailsBadCmd := by
  refine fun len s => ⟨fun sel => ?_, fun sel => ?_⟩
  · have hclass : (0b101#3 ++ sel).getLsbD 3 = true := by revert sel; decide
    exact congrArg Host.Outcome.next (State.fail_latch .badcmd _ len 2#5 (failValue_of_run hclass) s)
  · have hclass : (0b11#2 ++ sel).getLsbD 3 = true := by revert sel; decide
    exact congrArg Host.Outcome.next (State.fail_latch .badcmd _ len 2#5 (failValue_of_run hclass) s)

/-! ### PHASE codes that name no micro-step -/

/-- A micro-step's code is below 22 (R99). -/
theorem phase_lt_of_decodePhase {p : PhaseCode} {i : Instr} (h : decodePhase p = .ok i) : p.toNat < 22 := by
  have hall : ∀ q : PhaseCode, (decodePhase q).isOk = true → q.toNat < 22 := by decide
  exact hall p (by rw [h]; rfl)

/-- Settles O7: neither a reset nor a header nor a micro-step is what a step runs there. -/
theorem unusedPhaseCodesAreRefused : Obligations.UnusedPhaseCodesAreRefused := by
  intro s hr hp
  rcases step_cases s with ⟨hr', _⟩ | ⟨_, h, rest, hp0, _⟩ | ⟨_, _, ⟨i, hi, _⟩ | ⟨_, _, e⟩⟩
  · simp [hr] at hr'
  · simp [hp0] at hp
  · have hlt := phase_lt_of_decodePhase hi
    omega
  · exact e

end Sys2Proof.Machine
end

section
/-! The ports (R103): no instruction but IDLE takes a header off the command port, and a command whose packet is well
formed takes exactly its payload and gives one response (R93, R98). -/

namespace Sys2Proof.Machine

open Laws.RoundTrip (opField_headerOf lenField_headerOf)

/-! ### The parts of a run that leave the ports alone -/

/-- `t` has the three ports of `s`. -/
structure State.SamePorts (s t : State) : Prop where
  cmdPort : t.cmdPort = s.cmdPort
  payPort : t.payPort = s.payPort
  respPort : t.respPort = s.respPort

theorem State.SamePorts.trans {s t u : State} (h : s.SamePorts t) (h' : t.SamePorts u) : s.SamePorts u :=
  ⟨h'.cmdPort.trans h.cmdPort, h'.payPort.trans h.payPort, h'.respPort.trans h.respPort⟩

theorem State.samePorts_initRun (s : State) : s.SamePorts s.initRun := by
  rw [State.initRun]
  split <;> exact ⟨rfl, rfl, rfl⟩

theorem State.samePorts_encryptBlocks (n : Nat) (s : State) : s.SamePorts (State.encryptBlocks n s) :=
  State.encryptBlocks_induct (fun t h => h.trans (by rw [t.encryptBlock_frame]; exact ⟨rfl, rfl, rfl⟩)) n s
    ⟨rfl, rfl, rfl⟩

theorem State.samePorts_decryptBlocks (n : Nat) (s : State) : s.SamePorts (State.decryptBlocks n s) :=
  State.decryptBlocks_induct (fun t h => h.trans (by rw [t.decryptBlock_frame]; exact ⟨rfl, rfl, rfl⟩)) n s
    ⟨rfl, rfl, rfl⟩

theorem State.samePorts_of_strip {s t : State} (h : s.strip = .next t) : s.SamePorts t := by
  rcases s.strip_cases with ⟨_, e⟩ | ⟨_, e⟩
  · cases e.symm.trans h
    exact ⟨rfl, rfl, rfl⟩
  · cases e.symm.trans h

/-! ### Completions -/

/-- `t` is IDLE after a command of `s` that took no header, left `bytes` on the payload port and gave one response
(R98, R230). -/
structure State.Completed (s : State) (bytes : List Byte) (t : State) : Prop where
  cmdPort : t.cmdPort = s.cmdPort
  payPort : t.payPort = bytes
  phase : t.phase = 0#5
  respPort : t.respPort = s.respPort ++ [⟨t.status.ok, t.result⟩]

/-- A completion from a state with the ports of `s` (R230). -/
theorem State.SamePorts.completed {s t : State} (h : s.SamePorts t) (ok : Bool) (c : Cause) (u : Bool) (v : Len) :
    s.Completed s.payPort (t.complete ok c u v) :=
  ⟨h.cmdPort, h.payPort, rfl, congrArg (· ++ [(⟨ok, v⟩ : Response)]) h.respPort⟩

/-- A failure touches no port but the response port (R230). -/
theorem State.completed_fail (s : State) (c : Cause) : s.Completed s.payPort (s.fail c) :=
  State.SamePorts.completed ⟨rfl, rfl, rfl⟩ _ _ _ _

/-- ENCRYPT completes and takes no payload (R93, R180). -/
theorem State.completed_encryptCall (s : State) : s.Completed s.payPort s.encryptCall := by
  rcases s.encryptCall_cases with ⟨_, e⟩ | ⟨_, _, e⟩ | ⟨_, _, e⟩ <;> rw [e]
  · exact s.completed_fail _
  · exact s.completed_fail _
  · have hloop := s.samePorts_initRun.trans (State.samePorts_encryptBlocks (blockCount s.ptLen).toNat _)
    obtain ⟨hcmd, hpay, hresp⟩ := hloop
    refine State.SamePorts.completed ?_ _ _ _ _
    exact ⟨hcmd, hpay, hresp⟩

/-- DECRYPT completes, where it goes on, and takes no payload (R93, R181). -/
theorem State.completed_of_decryptCall {s t : State} (h : s.decryptCall = .next t) : s.Completed s.payPort t := by
  rcases s.decryptCall_cases with ⟨_, e⟩ | ⟨_, _, e⟩ | ⟨_, _, ⟨u, hstrip, e⟩ | ⟨r, _, e⟩⟩ <;> cases e.symm.trans h
  · exact s.completed_fail _
  · exact s.completed_fail _
  · have hloop := s.samePorts_initRun.trans (State.samePorts_decryptBlocks (blockCount s.ctLen).toNat _)
    obtain ⟨hcmd, hpay, hresp⟩ := hloop.trans (State.samePorts_of_strip hstrip)
    refine State.SamePorts.completed ?_ _ _ _ _
    exact ⟨hcmd, hpay, hresp⟩

/-! ### The command port -/

theorem State.updateIv_cmdPort (s : State) : s.updateIv.cmdPort = s.cmdPort := by
  rcases s.updateIv_cases with ⟨_, e⟩ | ⟨b, rest, _, ⟨_, e⟩ | ⟨_, e⟩⟩ <;> rw [e] <;> rfl

theorem State.updateKey_cmdPort (s : State) : s.updateKey.cmdPort = s.cmdPort := by
  rcases s.updateKey_cases with ⟨_, e⟩ | ⟨b, rest, _, ⟨_, e⟩ | ⟨_, e⟩⟩ <;> rw [e] <;> rfl

theorem State.updatePlaintext_cmdPort (s : State) : s.updatePlaintext.cmdPort = s.cmdPort := by
  rcases s.updatePlaintext_cases with ⟨_, e⟩ | ⟨_, _, e⟩ | ⟨_, _, ⟨_, e⟩ | ⟨bs, rest, _, _, e⟩⟩ <;>
    rw [e] <;> rfl

theorem State.updateCiphertext_cmdPort (s : State) : s.updateCiphertext.cmdPort = s.cmdPort := by
  rcases s.updateCiphertext_cases with ⟨_, e⟩ | ⟨_, _, e⟩ | ⟨_, _, ⟨_, e⟩ | ⟨bs, rest, _, _, e⟩⟩ <;>
    rw [e] <;> rfl

/-- If the outcome is a next state, no header of `s` was taken. -/
def State.KeepsHeaders (s : State) (o : Host.Outcome State Fault Refusal) : Prop :=
  ∀ t, o = .next t → t.cmdPort = s.cmdPort

theorem State.keepsHeaders_next {s t : State} (h : t.cmdPort = s.cmdPort) : s.KeepsHeaders (.next t) := by
  rintro _ ⟨⟩
  exact h

theorem State.keepsHeaders_fault (s : State) (r : Fault) : s.KeepsHeaders (.fault r) := by
  rintro _ ⟨⟩

/-- A micro-step guarded by `blockInBuffer` takes no header if its effect takes none. -/
theorem State.keepsHeaders_guarded {s t : State} {r : Fault} (b : Bool) (h : t.cmdPort = s.cmdPort) :
    s.KeepsHeaders (if b then .next t else .fault r) := by
  cases b
  · exact s.keepsHeaders_fault r
  · exact State.keepsHeaders_next h

theorem State.keepsHeaders_upd (s : State) : s.KeepsHeaders (execUpd s) := by
  rcases execUpd_cases s with e | e | e | e | e <;> rw [e]
  · exact State.keepsHeaders_next s.updateIv_cmdPort
  · exact State.keepsHeaders_next s.updateKey_cmdPort
  · exact State.keepsHeaders_next s.updatePlaintext_cmdPort
  · exact State.keepsHeaders_next s.updateCiphertext_cmdPort
  · exact State.keepsHeaders_next (s.completed_fail _).cmdPort

theorem State.keepsHeaders_rCheck (s : State) : s.KeepsHeaders (execRCheck s) := by
  refine State.keepsHeaders_next ?_
  split_ifs <;> rfl

theorem State.keepsHeaders_dStrip (s : State) : s.KeepsHeaders (execDStrip s) := by
  rcases s.strip_cases with ⟨_, e⟩ | ⟨_, e⟩ <;> rw [execDStrip, e]
  · exact State.keepsHeaders_next rfl
  · exact s.keepsHeaders_fault _

theorem State.finishRun_cmdPort (s : State) : s.finishRun.cmdPort = s.cmdPort := by
  rw [State.finishRun]
  split <;> rfl

/-- No instruction but IDLE takes a header off the command port (R103 item 1). -/
theorem exec_keepsHeaders {i : Instr} (hi : i ≠ .idle) (s : State) : s.KeepsHeaders (exec i s) := by
  cases i with
  | idle => exact absurd rfl hi
  | setIv len => exact State.keepsHeaders_next (State.updateIv_cmdPort _)
  | setKey len => exact State.keepsHeaders_next (State.updateKey_cmdPort _)
  | setPlaintext len => exact State.keepsHeaders_next (State.updatePlaintext_cmdPort _)
  | setCiphertext len => exact State.keepsHeaders_next (State.updateCiphertext_cmdPort _)
  | encrypt len => exact State.keepsHeaders_next (State.completed_encryptCall _).cmdPort
  | decrypt len => exact fun t h => (State.completed_of_decryptCall h).cmdPort
  | upd => exact s.keepsHeaders_upd
  | rCheck => exact s.keepsHeaders_rCheck
  | rInit => exact State.keepsHeaders_next s.samePorts_initRun.cmdPort
  | dStrip => exact s.keepsHeaders_dStrip
  | rDone => exact State.keepsHeaders_next s.finishRun_cmdPort
  | eCopyin | eCopyout | dCopyin | dCopyout => exact State.keepsHeaders_guarded _ rfl
  | updOther | runRsvdLow | runRsvdHigh | rTest | eXor | eChain | eLoad | ePerm | eExport | dLoad | dInvperm
  | dExport | dXor | dChain | rNext => exact State.keepsHeaders_next rfl

/-- Settles O18: a busy engine runs the micro-step of PHASE, and that is not IDLE. -/
theorem busyEngineLeavesTheCommandPortAlone : Obligations.BusyEngineLeavesTheCommandPortAlone := by
  intro s t hr hp h
  rcases step_cases s with ⟨hr', _⟩ | ⟨_, _, _, hp0, _⟩ | ⟨_, _, ⟨i, hi, e⟩ | ⟨_, _, e⟩⟩
  · simp [hr] at hr'
  · exact absurd hp0 hp
  · have hne : i ≠ .idle := by
      rintro rfl
      exact hp (Code.phase.inj (encode_of_decodePhase hi)).symm
    exact exec_keepsHeaders hne s t (e.symm.trans h)
  · cases e.symm.trans h

/-! ### A command with its whole payload on the port -/

/-- Accepting a packet touches no port that a completion speaks of (R90). -/
theorem State.Completed.of_latch {s t : State} {op : BitVec 4} {len : Len} {p : PhaseCode} {bytes : List Byte}
    (h : (s.latch op len p).Completed bytes t) : s.Completed bytes t := by
  obtain ⟨hcmd, hpay, hidle, hresp⟩ := h
  exact ⟨hcmd, hpay, hidle, hresp⟩

section Payload

variable {s : State} {payload bytes : List Byte} (hpay : s.payPort = payload ++ bytes)
include hpay

theorem State.payPort_of_empty (hlen : payload.length = 0) : s.payPort = bytes := by
  obtain rfl := List.eq_nil_of_length_eq_zero hlen
  exact hpay

/-- A failure completes a command without payload. -/
theorem State.completed_fail_of_empty (hlen : payload.length = 0) (c : Cause) : s.Completed bytes (s.fail c) := by
  obtain rfl := State.payPort_of_empty hpay hlen
  exact s.completed_fail c

theorem State.completed_updateIv (hlen : payload.length = 32) : s.Completed bytes s.updateIv := by
  rcases s.updateIv_cases with ⟨h, _⟩ | ⟨b, rest, hpay', hcases⟩
  · rw [hpay, List.length_append] at h
    omega
  · obtain ⟨rfl, rfl⟩ := List.append_inj (hpay.symm.trans hpay') (hlen.trans b.size_toArray.symm)
    rcases hcases with ⟨_, e⟩ | ⟨_, e⟩ <;> rw [e] <;> exact ⟨rfl, rfl, rfl, rfl⟩

theorem State.completed_updateKey (hlen : payload.length = 32) : s.Completed bytes s.updateKey := by
  rcases s.updateKey_cases with ⟨h, _⟩ | ⟨b, rest, hpay', hcases⟩
  · rw [hpay, List.length_append] at h
    omega
  · obtain ⟨rfl, rfl⟩ := List.append_inj (hpay.symm.trans hpay') (hlen.trans b.size_toArray.symm)
    rcases hcases with ⟨_, e⟩ | ⟨_, e⟩ <;> rw [e] <;> exact ⟨rfl, rfl, rfl, rfl⟩

/-- SET_PLAINTEXT completes, with the payload R93 asks for there (R123). -/
theorem State.completed_updatePlaintext (hlen : payload.length = payloadBytes s.maxLen 0x2#4 s.lenop.bits) :
    s.Completed bytes s.updatePlaintext := by
  rw [payloadBytes_text (.inl rfl)] at hlen
  rcases s.updatePlaintext_cases with ⟨h, e⟩ | ⟨_, h, e⟩ | ⟨hshort, hfits, hcases⟩
  · rw [e]
    exact State.completed_fail_of_empty hpay (hlen.trans (if_neg (by omega))) _
  · rw [e]
    exact State.completed_fail_of_empty hpay (hlen.trans (if_neg (by omega))) _
  · rw [if_pos ⟨hshort, hfits⟩] at hlen
    rcases hcases with ⟨h, _⟩ | ⟨bs, rest, hbs, hpay', e⟩
    · rw [hpay, List.length_append] at h
      omega
    · obtain ⟨rfl, rfl⟩ := List.append_inj (hpay.symm.trans hpay') (hlen.trans hbs.symm)
      rw [e]
      exact ⟨rfl, rfl, rfl, rfl⟩

/-- SET_CIPHERTEXT completes, with the payload R93 asks for there (R124). -/
theorem State.completed_updateCiphertext (hlen : payload.length = payloadBytes s.maxLen 0x3#4 s.lenop.bits) :
    s.Completed bytes s.updateCiphertext := by
  rw [payloadBytes_text (.inr rfl)] at hlen
  rcases s.updateCiphertext_cases with ⟨h, e⟩ | ⟨_, h, e⟩ | ⟨hshort, hfits, hcases⟩
  · rw [e]
    exact State.completed_fail_of_empty hpay (hlen.trans (if_neg (by omega))) _
  · rw [e]
    exact State.completed_fail_of_empty hpay (hlen.trans (if_neg (by omega))) _
  · rw [if_pos ⟨hshort, hfits⟩] at hlen
    rcases hcases with ⟨h, _⟩ | ⟨bs, rest, hbs, hpay', e⟩
    · rw [hpay, List.length_append] at h
      omega
    · obtain ⟨rfl, rfl⟩ := List.append_inj (hpay.symm.trans hpay') (hlen.trans hbs.symm)
      rw [e]
      exact ⟨rfl, rfl, rfl, rfl⟩

/-- A command goes on and takes exactly the payload that its header asks for, where CT_LEN is one that R36 item 3
allows (R93). -/
theorem exec_completed {i : Instr} {h : Header} (hi : encode i = .header h)
    (hct : s.ctLen = 0#32 ∨ 32 ≤ s.ctLen.toNat)
    (hlen : payload.length = payloadBytes s.maxLen (opField h) (lenField h)) :
    ∃ t, exec i s = .next t ∧ s.Completed bytes t := by
  have hbytes (op : BitVec 4) (len : Len) (he : encode i = .header (headerOf op len)) :
      payload.length = payloadBytes s.maxLen op len := by
    obtain rfl := Code.header.inj (he.symm.trans hi)
    rwa [opField_headerOf, lenField_headerOf] at hlen
  cases i with
  | setIv len =>
    exact ⟨_, rfl, (State.completed_updateIv (s := s.latch 0x0#4 len 1#5) hpay (hbytes 0x0#4 len rfl)).of_latch⟩
  | setKey len =>
    exact ⟨_, rfl, (State.completed_updateKey (s := s.latch 0x1#4 len 1#5) hpay (hbytes 0x1#4 len rfl)).of_latch⟩
  | setPlaintext len =>
    exact ⟨_, rfl, (State.completed_updatePlaintext (s := s.latch 0x2#4 len 1#5) hpay (hbytes _ len rfl)).of_latch⟩
  | setCiphertext len =>
    exact ⟨_, rfl, (State.completed_updateCiphertext (s := s.latch 0x3#4 len 1#5) hpay (hbytes _ len rfl)).of_latch⟩
  | updOther mm len =>
    have hempty := (hbytes _ len rfl).trans (payloadBytes_updOther _ mm len)
    exact ⟨_, rfl, (State.completed_fail_of_empty (s := s.latch _ len 1#5) hpay hempty .badmode).of_latch⟩
  | encrypt len =>
    obtain rfl := State.payPort_of_empty hpay (hbytes 0x8#4 len rfl)
    exact ⟨_, rfl, (State.completed_encryptCall _).of_latch⟩
  | decrypt len =>
    obtain rfl := State.payPort_of_empty hpay (hbytes 0x9#4 len rfl)
    obtain ⟨t, ht⟩ := State.decryptCall_next (s := s.latch 0x9#4 len 2#5) rfl hct
    exact ⟨t, ht, (State.completed_of_decryptCall ht).of_latch⟩
  | runRsvdLow sel len =>
    have hempty := (hbytes _ len rfl).trans (payloadBytes_runRsvdLow _ sel len)
    exact ⟨_, rfl, (State.completed_fail_of_empty (s := s.latch _ len 2#5) hpay hempty .badcmd).of_latch⟩
  | runRsvdHigh sel len =>
    have hempty := (hbytes _ len rfl).trans (payloadBytes_runRsvdHigh _ sel len)
    exact ⟨_, rfl, (State.completed_fail_of_empty (s := s.latch _ len 2#5) hpay hempty .badcmd).of_latch⟩
  | idle | upd | rCheck | rInit | rTest | eCopyin | eXor | eChain | eLoad | ePerm | eExport | eCopyout | dCopyin
  | dLoad | dInvperm | dExport | dXor | dCopyout | dChain | rNext | dStrip | rDone => cases hi

end Payload

/-- Settles O32: the step runs the command of the header, on a state whose command port is past it. -/
theorem wellFormedPacketsAreTakenWholeAndComplete : Obligations.WellFormedPacketsAreTakenWholeAndComplete := by
  intro s p headers bytes hinv hr hp hl hwf hcmd hpay
  have hcode : encode (decodeHeader p.header) = .header p.header := encodeOfDecodeIsTheCode _ _ rfl
  have hct : s.ctLen = 0#32 ∨ 32 ≤ s.ctLen.toNat := hinv.context.ctLen.imp_right And.left
  obtain ⟨t, ht, hheaders, hrest, hidle, hresp⟩ :=
    exec_completed (s := { s with cmdPort := headers }) hpay hcode hct (beq_iff_eq.mp hwf)
  exact ⟨t, (step_of_header hr hp hl hcmd).trans ht, hheaders, hrest, hidle, hresp⟩

end Sys2Proof.Machine
end

section
/-! Updates and reserved run commands by micro-steps (R120, R208): the acceptance and one micro-step. -/

namespace Sys2Proof.Machine

/-- In IDLE at the micro-step level the first step of a run accepts the update presented (R212). -/
theorem steps_succ_of_accept_update {s : State} {h : Header} {rest : List Header} {k : Nat}
    (hr : s.resetIn = false) (hp : s.phase = 0#5) (hl : s.level = .microstep) (hc : s.cmdPort = h :: rest)
    (hclass : (opField h).getLsbD 3 = false) :
    steps (k + 1) s = steps k (({ s with cmdPort := rest } : State).latch (opField h) (lenField h) 1#5) := by
  have he : step s = execIdle s := step_of_phase (i := .idle) hr (.inr (.inl hl)) (by rw [hp]; rfl)
  rw [steps, he, execIdle, hc]
  simp only [hclass, Bool.false_eq_true, if_false]

/-- R_CHECK of a reserved run selector fails BADCMD (R185). -/
theorem execRCheck_of_reserved {s : State} (h : 2 ≤ (s.op.bits.extractLsb' 0 3).toNat) :
    execRCheck s = .next (s.fail .badcmd) := congrArg Host.Outcome.next (if_pos h)

/-- The command level of a reserved run command: accept the packet, then the micro-step R_CHECK (R96, R185). -/
theorem exec_decodeOp_of_reserved {op : BitVec 4} (hclass : op.getLsbD 3 = true) (he : op ≠ 0x8#4) (hd : op ≠ 0x9#4)
    (len : Len) (s : State) : exec (decodeOp op len) s = execRCheck (s.latch op len 2#5) := by
  have hsel : 2 ≤ (op.extractLsb' 0 3).toNat := by revert op; decide
  rw [execRCheck_of_reserved hsel]
  have hcodes : op = 10#4 ∨ op = 11#4 ∨ op = 12#4 ∨ op = 13#4 ∨ op = 14#4 ∨ op = 15#4 := by
    revert op; decide
  rcases hcodes with rfl | rfl | rfl | rfl | rfl | rfl <;> rfl

/-- Settles O56, by the class bit of the operation code. -/
theorem updatesAndReservedCommandsTakeOneMicroStep : Obligations.UpdatesAndReservedCommandsTakeOneMicroStep := by
  intro s h rest hr hp hl hc he hd
  rw [decodeHeader]
  by_cases hclass : (opField h).getLsbD 3 = true
  · rw [steps_succ_of_accept hr hp hl hc hclass, steps_one, exec_decodeOp_of_reserved hclass he hd]
    exact step_of_microstep (i := .rCheck) (by decide) hr rfl
  · have hupdate : (opField h).getLsbD 3 = false := Bool.eq_false_iff.mpr hclass
    rw [steps_succ_of_accept_update hr hp hl hc hupdate, steps_one, exec_decodeOp_of_update _ _ _ hupdate]
    exact step_of_microstep (i := .upd) (by decide) hr rfl

end Sys2Proof.Machine
end

section
/-! Updates that report a failure (R121 to R124, R127, R128), and the micro-step UPD by the mode it has latched
(R120). -/

namespace Sys2Proof.Machine

/-! ### A failure -/

/-- A failure while an update is latched reports RESULT 0 (R230). -/
theorem State.fail_of_update {s : State} (hclass : s.op.bits.getLsbD 3 = false) (c : Cause) :
    s.fail c = s.complete false c false 0#32 := by
  rw [State.fail, failValue_of_update hclass]

/-! ### A corrupted copy of IV or KEY -/

/-- A storage fault decides what the copy leaves (log entry 11). -/
theorem State.stored_of_fault {s : State} {c : Block} (h : s.storageFault = some c) (b : Block) : s.stored b = c := by
  rw [State.stored, h]

section Corrupted

variable {s : State} {b : Block} {rest : List Byte} (hpay : s.payPort = b.toList ++ rest) (hbad : s.stored b ≠ b)
include hpay hbad

/-- SET_IV with its payload there and a copy that differs from it (R121, R224). -/
theorem State.updateIv_of_corrupted :
    s.updateIv =
      ({ s with payPort := rest, iv := .value (s.stored b), storageFault := none } : State).fail .verify := by
  simp only [State.updateIv, hpay, takeBlock_append]
  exact if_pos hbad

/-- SET_KEY with its payload there and a copy that differs from it (R122, R224). -/
theorem State.updateKey_of_corrupted :
    s.updateKey =
      ({ s with payPort := rest, key := .value (s.stored b), storageFault := none } : State).fail .verify := by
  simp only [State.updateKey, hpay, takeBlock_append]
  exact if_pos hbad

end Corrupted

/-- Settles O23: the update of the latched state, whose storage leaves `c` in place of the payload. -/
theorem setIvAndSetKeyReportACorruptedCopy : Obligations.SetIvAndSetKeyReportACorruptedCopy := by
  intro len s b c rest hpay hfault hne
  have hstored : s.stored b = c := State.stored_of_fault hfault b
  subst hstored
  have hivClass : (0x0#4).getLsbD 3 = false := by decide
  have hkeyClass : (0x1#4).getLsbD 3 = false := by decide
  have hiv := State.updateIv_of_corrupted (s := s.latch 0x0#4 len 1#5) hpay hne
  have hkey := State.updateKey_of_corrupted (s := s.latch 0x1#4 len 1#5) hpay hne
  exact ⟨congrArg Host.Outcome.next (hiv.trans (State.fail_of_update hivClass .verify)),
    congrArg Host.Outcome.next (hkey.trans (State.fail_of_update hkeyClass .verify))⟩

/-! ### Text updates of a length that is not allowed -/

section BadLength

variable {s : State} {c : Cause}
  (hbad : (s.lenop.bits.toNat < 32 ∧ c = .short) ∨
    (32 ≤ s.lenop.bits.toNat ∧ s.maxLen < s.lenop.bits.toNat ∧ c = .capacity))
include hbad

/-- SET_PLAINTEXT tests SHORT, then CAPACITY, before it takes a byte (R123, R127, R128). -/
theorem State.updatePlaintext_of_badLength : s.updatePlaintext = s.fail c := by
  rcases hbad with ⟨hshort, rfl⟩ | ⟨hlong, hover, rfl⟩
  · exact if_pos hshort
  · exact (if_neg (Nat.not_lt.mpr hlong)).trans (if_pos hover)

/-- SET_CIPHERTEXT tests SHORT, then CAPACITY, before it takes a byte (R124, R127, R128). -/
theorem State.updateCiphertext_of_badLength : s.updateCiphertext = s.fail c := by
  rcases hbad with ⟨hshort, rfl⟩ | ⟨hlong, hover, rfl⟩
  · exact if_pos hshort
  · exact (if_neg (Nat.not_lt.mpr hlong)).trans (if_pos hover)

end BadLength

/-- Settles O27: the update of the latched state fails before it writes anything. -/
theorem textUpdatesRejectBadLengths : Obligations.TextUpdatesRejectBadLengths := by
  intro len s c hbad
  have hptClass : (0x2#4).getLsbD 3 = false := by decide
  have hctClass : (0x3#4).getLsbD 3 = false := by decide
  have hpt := State.updatePlaintext_of_badLength (s := s.latch 0x2#4 len 1#5) hbad
  have hct := State.updateCiphertext_of_badLength (s := s.latch 0x3#4 len 1#5) hbad
  exact ⟨congrArg Host.Outcome.next (hpt.trans (State.fail_of_update hptClass c)),
    congrArg Host.Outcome.next (hct.trans (State.fail_of_update hctClass c))⟩

/-! ### The mode of UPD -/

section Mode

variable {s : State}

theorem execUpd_of_mode_zero (h : (s.op.bits.extractLsb' 0 3).toNat = 0) : execUpd s = .next s.updateIv := by
  have hmode : s.op.bits.extractLsb' 0 3 = 0#3 := BitVec.eq_of_toNat_eq h
  simp [execUpd, hmode]

theorem execUpd_of_mode_one (h : (s.op.bits.extractLsb' 0 3).toNat = 1) : execUpd s = .next s.updateKey := by
  have hmode : s.op.bits.extractLsb' 0 3 = 1#3 := BitVec.eq_of_toNat_eq h
  simp [execUpd, hmode]

theorem execUpd_of_mode_two (h : (s.op.bits.extractLsb' 0 3).toNat = 2) : execUpd s = .next s.updatePlaintext := by
  have hmode : s.op.bits.extractLsb' 0 3 = 2#3 := BitVec.eq_of_toNat_eq h
  simp [execUpd, hmode]

theorem execUpd_of_mode_three (h : (s.op.bits.extractLsb' 0 3).toNat = 3) : execUpd s = .next s.updateCiphertext := by
  have hmode : s.op.bits.extractLsb' 0 3 = 3#3 := BitVec.eq_of_toNat_eq h
  simp [execUpd, hmode]

/-- The modes that name no field (R125). -/
theorem execUpd_of_four_le_mode (h : 4 ≤ (s.op.bits.extractLsb' 0 3).toNat) : execUpd s = .next (s.fail .badmode) := by
  have hne (n : BitVec 3) (hn : n.toNat < 4) : s.op.bits.extractLsb' 0 3 ≠ n := by
    rintro rfl
    omega
  simp only [execUpd, hne 0#3 (by decide), hne 1#3 (by decide), hne 2#3 (by decide), hne 3#3 (by decide), if_false,
    State.updateOther]

end Mode

/-- Settles O31: the update that the mode selects, with its payload there. -/
theorem updMicroStepPerformsTheUpdate : Obligations.UpdMicroStepPerformsTheUpdate := by
  rintro s _ rfl hclass
  refine ⟨fun b rest hpay hsound => ?_, fun bs rest hshort hfits hlen hpay => ?_, fun hmode => ?_⟩
  · have hstored : s.stored b = b := State.stored_eq (.inl hsound)
    refine ⟨fun hmode => (execUpd_of_mode_zero hmode).trans ?_, fun hmode => (execUpd_of_mode_one hmode).trans ?_⟩
    · rw [State.updateIv_of_payload hpay hstored, ← hsound]
      rfl
    · rw [State.updateKey_of_payload hpay hstored, ← hsound]
      rfl
  · refine ⟨fun hmode => ⟨_, execUpd_of_mode_two hmode, ?_⟩, fun hmode => ⟨_, execUpd_of_mode_three hmode, ?_⟩⟩
    · rw [State.updatePlaintext_of_payload hshort hfits hlen hpay]
      exact ⟨rfl, Memory.lookup_writeBytes_nil bs⟩
    · rw [State.updateCiphertext_of_payload hshort hfits hlen hpay]
      exact ⟨rfl, Memory.lookup_writeBytes_nil bs⟩
  · exact (execUpd_of_four_le_mode hmode).trans (congrArg Host.Outcome.next (State.fail_of_update hclass .badmode))

end Sys2Proof.Machine
end

section
/-! The keystream (41_keystream.md): the general XOR, and the permutation of a block as a mirror of its bytes (R140,
R141, R165). -/

namespace Sys2Proof.Machine

/-! ### XOR -/

/-- Inputs that fit into the output: the xor over the shorter length, then the rest of the output (R140). -/
theorem xorGeneral_of_fits {a b o : List Byte} (ha : a.length ≤ o.length) (hb : b.length ≤ o.length) :
    xorGeneral a b o =
      (min a.length b.length, List.zipWith (· ^^^ ·) a b ++ o.drop (min a.length b.length)) := by
  have hzip : (a.zip b).map (fun p => p.1 ^^^ p.2) = List.zipWith (· ^^^ ·) a b := List.map_uncurry_zip_eq_zipWith
  rw [xorGeneral, if_neg (by omega), hzip]

/-- The 32 lanes as a list (R141). -/
theorem xorBlock_toList (a b : Block) : (xorBlock a b).toList = List.zipWith (· ^^^ ·) a.toList b.toList := by
  have hzip : xorBlock a b = Vector.zipWith (· ^^^ ·) a b := by
    ext k hk
    rw [xorBlock_get, Vector.getElem_zipWith]
  rw [hzip, Vector.toList_zipWith]

/-- Settles O49, by the two answers of the general form and the lengths of three blocks. -/
theorem generalXorAndItsThirtyTwoLanes : Obligations.GeneralXorAndItsThirtyTwoLanes := by
  refine ⟨fun a b o => ⟨fun h => if_pos h, fun ha hb => ?_⟩, fun a b o => ?_⟩
  · have hlen : (List.zipWith (· ^^^ ·) a b).length = min a.length b.length := List.length_zipWith
    rw [xorGeneral_of_fits ha hb]
    refine ⟨rfl, ?_, fun k => ?_⟩
    · rw [List.length_append, hlen, List.length_drop]
      omega
    · by_cases hk : k < min a.length b.length
      · have hka : k < a.length := by omega
        have hkb : k < b.length := by omega
        rw [if_pos hk, List.getElem?_append_left (by omega), List.getElem?_zipWith, List.getElem?_eq_getElem hka,
          List.getElem?_eq_getElem hkb]
      · rw [if_neg hk, List.getElem?_append_right (by omega), List.getElem?_drop, hlen,
          Nat.add_sub_cancel' (by omega)]
  · have hlen (c : Block) : c.toList.length = 32 := c.size_toArray
    rw [xorGeneral_of_fits (by simp) (by simp), hlen, hlen, xorBlock_toList,
      List.drop_eq_nil_of_le (by rw [hlen]; decide), List.append_nil]
    rfl

theorem xorBlock_comm (a b : Block) : xorBlock a b = xorBlock b a := by
  ext k hk
  rw [xorBlock_get, xorBlock_get, BitVec.xor_comm]

/-! ### The permutation of a block -/

theorem mirrorIndex_mirrorIndex (j : Fin 32) : mirrorIndex (mirrorIndex j) = j := by revert j; decide

/-- The cell that EXPORT of a permuted matrix takes byte `j` from was loaded with byte `j xor 23` (R165). -/
theorem cellIndex_permuted (j : Fin 32) : cellIndex (cellRow j + 2) (7 - cellCol j) = mirrorIndex j := by
  revert j; decide

/-- LOAD, PERMUTE, EXPORT: byte `j` is byte `j xor 23` of the block (R169). -/
theorem exportMatrix_permute_loadMatrix_get (b : Block) (j : Fin 32) :
    (exportMatrix (permute (loadMatrix b)))[j] = b[mirrorIndex j] := by
  rw [exportMatrix_get, permute_get, loadMatrix_get, setWidth_signExtend]
  exact congrArg (fun i : Fin 32 => b[i]) (cellIndex_permuted j)

end Sys2Proof.Machine
end

section
/-! The block loops of ENCRYPT and DECRYPT in closed form (R145): both keep the same counts, the same chain in KEYROUND
and the same layout of the output buffer, and differ in the bytes. -/

namespace Sys2Proof.Machine

/-! ### A buffer filled block by block -/

/-- A buffer whose first `n` blocks have the bytes `b` and which holds no other value. -/
structure Memory.HoldsBlocks (m : Memory) (n : Nat) (b : Nat → Fin 32 → Byte) : Prop where
  inside : ∀ i < n, ∀ j : Fin 32, m.lookup (32 * i + j.val) = some (b i j)
  outside : ∀ a, 32 * n ≤ a → m.lookup a = none

theorem Memory.holdsBlocks_nil (b : Nat → Fin 32 → Byte) : Memory.HoldsBlocks [] 0 b :=
  ⟨fun i hi => absurd hi (Nat.not_lt_zero i), fun a _ => Memory.lookup_nil a⟩

/-- Writing the next block (R64). -/
theorem Memory.HoldsBlocks.writeBlock {m : Memory} {n : Nat} {b : Nat → Fin 32 → Byte} (h : m.HoldsBlocks n b)
    {v : Block} (hv : ∀ j : Fin 32, v[j] = b n j) : (m.writeBytes (32 * n) v.toList).HoldsBlocks (n + 1) b := by
  refine ⟨fun i hi j => ?_, fun a ha => ?_⟩
  · rcases Nat.lt_succ_iff_lt_or_eq.mp hi with hlt | rfl
    · rw [Memory.lookup_writeBlock_of_outside _ _ _ (by omega), h.inside i hlt j]
    · rw [Memory.lookup_writeBlock, hv]
  · rw [Memory.lookup_writeBlock_of_outside _ _ _ (by omega), h.outside a (by omega)]

/-! ### After `n` blocks -/

/-- Byte `j` of KEYROUND before block `i` of a run: K0, then the block before (R145). -/
def State.chainByte (s : State) (blocks : Nat → Fin 32 → Byte) : Nat → Fin 32 → Byte
  | 0, j => s.k0Byte j
  | i + 1, j => blocks i j

theorem State.fedByte_succ (s : State) (i : Nat) (j : Fin 32) :
    s.fedByte (i + 1) j = s.fedByte i j ^^^ s.plainByte (i + 1) j := rfl

/-- Byte `j` of F_i from the block before (R145). -/
theorem State.fedByte_eq (s : State) (i : Nat) (j : Fin 32) :
    s.fedByte i j = s.plainByte i j ^^^ s.chainByte s.fedByte i j := by
  cases i <;> exact BitVec.xor_comm _ _

/-- Byte `j` of Q_i from the block before (R145). -/
theorem State.recoveredByte_eq (s : State) (i : Nat) (j : Fin 32) :
    s.recoveredByte i j = s.unpermutedByte i j ^^^ s.chainByte s.recoveredByte i j := by
  cases i with
  | zero => rfl
  | succ i => exact BitVec.xor_comm _ _

/-- A run on the context `s` is in state `t` after `n` blocks: the counts, the chain `blocks` in KEYROUND, and the
output buffer with its extent, which holds the bytes `written`. -/
structure State.AfterBlocks (s : State) (blocks written : Nat → Fin 32 → Byte) (n : Nat) (t : State)
    (output : Memory) (ext : Len) : Prop where
  blkcnt : t.blkcnt.bits = BitVec.ofNat 32 n
  outlen : t.outlen.bits = BitVec.ofNat 32 (32 * n)
  keyroundHeld : t.keyround.held = true
  keyround : ∀ j : Fin 32, t.keyround.bits[j] = s.chainByte blocks n j
  output : output.HoldsBlocks n written
  ext : ext = BitVec.ofNat 32 (32 * n)

section AfterBlocks

variable {s t u : State} {blocks written : Nat → Fin 32 → Byte} {n : Nat} {output : Memory} {ext : Len}
  (h : s.AfterBlocks blocks written n t output ext)
include h

/-- The current block begins at `32 × BLKCNT` (R63). -/
theorem State.AfterBlocks.blockIndex : t.blockIndex = BitVec.ofNat 32 (32 * n) := by
  rw [State.blockIndex, h.blkcnt, BitVec.ofNat_mul]

theorem State.AfterBlocks.blockIndex_toNat (hn : 32 * n < 2 ^ 32) : t.blockIndex.toNat = 32 * n := by
  rw [h.blockIndex, BitVec.toNat_ofNat, Nat.mod_eq_of_lt hn]

/-- One pass that counts block `n`, leaves it in KEYROUND and writes its output. -/
theorem State.AfterBlocks.next (hn : 32 * n < 2 ^ 32) {k out : Block}
    (hcnt : u.blkcnt = .value (t.blkcnt.bits + 1#32)) (hlen : u.outlen = .value (t.outlen.bits + 32#32))
    (hkeyround : u.keyround = .value k) (hk : ∀ j : Fin 32, k[j] = blocks n j)
    (hout : ∀ j : Fin 32, out[j] = written n j) :
    s.AfterBlocks blocks written (n + 1) u (output.writeBytes t.blockIndex.toNat out.toList)
      (t.blockIndex + 32#32) := by
  have hsucc : BitVec.ofNat 32 (32 * n) + 32#32 = BitVec.ofNat 32 (32 * (n + 1)) := by
    rw [← BitVec.ofNat_add, Nat.mul_succ]
  refine ⟨?_, ?_, ?_, ?_, ?_, ?_⟩
  · rw [hcnt, Reg.value_bits, h.blkcnt, ← BitVec.ofNat_add]
  · rw [hlen, Reg.value_bits, h.outlen, hsucc]
  · rw [hkeyround, Reg.value_held]
  · rw [hkeyround, Reg.value_bits]
    exact hk
  · rw [h.blockIndex_toNat hn]
    exact h.output.writeBlock hout
  · rw [h.blockIndex, hsucc]

end AfterBlocks

/-- DERIVE gives K0 (R142). -/
theorem State.derive_get (s : State) (j : Fin 32) : (derive s.key.bits s.iv.bits)[j] = s.k0Byte j :=
  xorBlock_get _ _ j.val j.isLt

/-- The blocks of a text whose length fits in a word. -/
theorem blocks_le_words (l : Len) : 32 * (l.toNat / 32) ≤ 2 ^ 32 := by
  have hword := l.isLt
  omega

/-! ### ENCRYPT -/

/-- `t` is `s` but for what R_INIT and the loop of an ENCRYPT write (R186, R180). -/
def State.EncryptFrame (s t : State) : Prop :=
  t = { s with
    ct := t.ct, ctExt := t.ctExt, keyround := t.keyround, matrix := t.matrix, blk := t.blk, fed := t.fed
    out := t.out, blkcnt := t.blkcnt, nmemb := t.nmemb, total := t.total, outlen := t.outlen }

theorem State.EncryptFrame.refl (s : State) : s.EncryptFrame s := rfl

theorem State.EncryptFrame.pt_eq {s t : State} (h : s.EncryptFrame t) : t.pt = s.pt := by rw [h]

theorem State.EncryptFrame.encryptBlock {s t : State} (h : s.EncryptFrame t) : s.EncryptFrame t.encryptBlock := by
  have hpass := t.encryptBlock_frame
  generalize t.encryptBlock = u at hpass
  rw [h] at hpass
  rw [State.EncryptFrame, hpass]

theorem State.EncryptFrame.encryptBlocks {s t : State} (h : s.EncryptFrame t) (n : Nat) :
    s.EncryptFrame (State.encryptBlocks n t) :=
  State.encryptBlocks_induct (fun _ h => h.encryptBlock) n t h

theorem State.encryptBlocks_pt (n : Nat) (s : State) : (State.encryptBlocks n s).pt = s.pt :=
  ((State.EncryptFrame.refl s).encryptBlocks n).pt_eq

/-- `n` blocks of ENCRYPT from the context `s` (R145). -/
def State.Encrypted (s : State) (n : Nat) (t : State) : Prop :=
  s.AfterBlocks s.fedByte (fun i j => s.fedByte i (mirrorIndex j)) n t t.ct t.ctExt

/-- FED of a pass of ENCRYPT is F_n. -/
theorem State.Encrypted.encryptBlock_fed {s t : State} {n : Nat} (h : s.Encrypted n t) (hpt : t.pt = s.pt)
    (hn : 32 * n < 2 ^ 32) (j : Fin 32) : t.encryptBlock.fed.bits[j] = s.fedByte n j := by
  rw [t.encryptBlock_fed, Reg.value_bits, Fin.getElem_fin, xorBlock_get, Memory.readBlock_get, h.blockIndex_toNat hn,
    hpt, s.fedByte_eq, ← h.keyround]
  rfl

/-- One pass of ENCRYPT (R180). -/
theorem State.Encrypted.encryptBlock {s t : State} {n : Nat} (h : s.Encrypted n t) (hpt : t.pt = s.pt)
    (hn : 32 * n < 2 ^ 32) : s.Encrypted (n + 1) t.encryptBlock := by
  have hfed := h.encryptBlock_fed hpt hn
  have hkeyround : t.encryptBlock.keyround = .value t.encryptBlock.fed.bits := by
    rw [t.encryptBlock_keyround, t.encryptBlock_fed, Reg.value_bits]
  have hout (j : Fin 32) : t.encryptBlock.out.bits[j] = s.fedByte n (mirrorIndex j) := by
    rw [t.encryptBlock_out, Reg.value_bits, exportMatrix_permute_loadMatrix_get, hfed]
  rw [State.Encrypted, t.encryptBlock_ct, t.encryptBlock_ctExt]
  exact h.next hn t.encryptBlock_blkcnt t.encryptBlock_outlen hkeyround hfed hout

/-- The loop of ENCRYPT (R149, R180). -/
theorem State.Encrypted.encryptBlocks {s t : State} (h : s.Encrypted 0 t) (hpt : t.pt = s.pt) :
    ∀ n, 32 * n ≤ 2 ^ 32 → s.Encrypted n (State.encryptBlocks n t)
  | 0, _ => h
  | n + 1, hn => by
    have ih := State.Encrypted.encryptBlocks h hpt n (by omega)
    rw [State.encryptBlocks_succ]
    exact ih.encryptBlock ((State.encryptBlocks_pt n t).trans hpt) (by omega)

/-- The state after the loop of an ENCRYPT accepted with `len`. -/
def State.encryptLoop (len : Len) (s : State) : State :=
  State.encryptBlocks (s.ptLen.toNat / 32) (s.latch 0x8#4 len 2#5).initRun

theorem State.encryptLoop_frame (len : Len) (s : State) : (s.latch 0x8#4 len 2#5).EncryptFrame (s.encryptLoop len) := by
  have hinit : (s.latch 0x8#4 len 2#5).EncryptFrame (s.latch 0x8#4 len 2#5).initRun := rfl
  exact hinit.encryptBlocks _

/-- R_INIT starts the chain with K0 (R186), the loop goes on with every block (R145). -/
theorem State.encrypted_encryptLoop (len : Len) (s : State) : s.Encrypted (s.ptLen.toNat / 32) (s.encryptLoop len) := by
  have hinit : s.Encrypted 0 (s.latch 0x8#4 len 2#5).initRun :=
    ⟨rfl, rfl, rfl, s.derive_get, Memory.holdsBlocks_nil _, rfl⟩
  exact hinit.encryptBlocks rfl _ (blocks_le_words s.ptLen)

/-- An ENCRYPT that no precondition stops runs the loop and completes (R180). -/
theorem exec_encrypt_of_accepted (len : Len) {s : State}
    (hset : ¬(s.ivLen = 0#32 ∨ s.keyLen = 0#32 ∨ s.ptLen = 0#32)) (hfits : s.ptLen.toNat ≤ s.maxLen) :
    exec (.encrypt len) s = .next
      (({ s.encryptLoop len with ctLen := (s.encryptLoop len).outlen.bits } : State).done false
        (s.encryptLoop len).outlen.bits) := by
  rcases (s.latch 0x8#4 len 2#5).encryptCall_cases with ⟨h, _⟩ | ⟨_, h, _⟩ | ⟨_, _, e⟩
  · exact absurd h hset
  · exact absurd hfits (Nat.not_le.mpr h)
  · rw [blockCount_toNat] at e
    exact congrArg Host.Outcome.next e

/-- Settles O52: the closed form of the loop, and the completion. -/
theorem encryptWritesThePermutedChain : Obligations.EncryptWritesThePermutedChain := by
  rintro len s n rfl hiv hkey hpt hfits
  have hset : ¬(s.ivLen = 0#32 ∨ s.keyLen = 0#32 ∨ s.ptLen = 0#32) := by tauto
  have hframe := s.encryptLoop_frame len
  obtain ⟨_, houtlen, hheld, hkeyround, ⟨hinside, houtside⟩, hext⟩ := s.encrypted_encryptLoop len
  refine ⟨_, exec_encrypt_of_accepted len hset hfits, ?_, hinside, houtside, hheld, fun j => (hkeyround j).trans ?_⟩
  · rw [houtlen]
    generalize s.encryptLoop len = v at hframe hext
    rw [hframe, hext]
    rfl
  · cases s.ptLen.toNat / 32 <;> rfl

/-! ### DECRYPT -/

/-- `t` is `s` but for what R_INIT and the loop of a DECRYPT write (R186, R181). -/
def State.DecryptFrame (s t : State) : Prop :=
  t = { s with
    pt := t.pt, ptExt := t.ptExt, keyround := t.keyround, matrix := t.matrix, blk := t.blk, fed := t.fed
    out := t.out, blkcnt := t.blkcnt, nmemb := t.nmemb, total := t.total, outlen := t.outlen }

theorem State.DecryptFrame.refl (s : State) : s.DecryptFrame s := rfl

theorem State.DecryptFrame.ct_eq {s t : State} (h : s.DecryptFrame t) : t.ct = s.ct := by rw [h]

theorem State.DecryptFrame.maxLen_eq {s t : State} (h : s.DecryptFrame t) : t.maxLen = s.maxLen := by rw [h]

theorem State.DecryptFrame.decryptBlock {s t : State} (h : s.DecryptFrame t) : s.DecryptFrame t.decryptBlock := by
  have hpass := t.decryptBlock_frame
  generalize t.decryptBlock = u at hpass
  rw [h] at hpass
  rw [State.DecryptFrame, hpass]

theorem State.DecryptFrame.decryptBlocks {s t : State} (h : s.DecryptFrame t) (n : Nat) :
    s.DecryptFrame (State.decryptBlocks n t) :=
  State.decryptBlocks_induct (fun _ h => h.decryptBlock) n t h

theorem State.decryptBlocks_ct (n : Nat) (s : State) : (State.decryptBlocks n s).ct = s.ct :=
  ((State.DecryptFrame.refl s).decryptBlocks n).ct_eq

/-- `n` blocks of DECRYPT from the context `s` (R145). -/
def State.Decrypted (s : State) (n : Nat) (t : State) : Prop :=
  s.AfterBlocks s.recoveredByte s.recoveredByte n t t.pt t.ptExt

/-- FED of a pass of DECRYPT is G_n. -/
theorem State.Decrypted.decryptBlock_fed {s t : State} {n : Nat} (h : s.Decrypted n t) (hct : t.ct = s.ct)
    (hn : 32 * n < 2 ^ 32) (j : Fin 32) : t.decryptBlock.fed.bits[j] = s.unpermutedByte n j := by
  rw [t.decryptBlock_fed, Reg.value_bits, invPermute_eq_permute, exportMatrix_permute_loadMatrix_get, Fin.getElem_fin,
    Memory.readBlock_get, h.blockIndex_toNat hn, hct]
  rfl

/-- One pass of DECRYPT (R181): OUT and the next KEYROUND are the same xor. -/
theorem State.Decrypted.decryptBlock {s t : State} {n : Nat} (h : s.Decrypted n t) (hct : t.ct = s.ct)
    (hn : 32 * n < 2 ^ 32) : s.Decrypted (n + 1) t.decryptBlock := by
  have hout (j : Fin 32) : (xorBlock t.decryptBlock.fed.bits t.keyround.bits)[j] = s.recoveredByte n j := by
    rw [s.recoveredByte_eq, ← h.keyround, ← h.decryptBlock_fed hct hn]
    exact xorBlock_get _ _ j.val j.isLt
  have hkeyround (j : Fin 32) : (xorBlock t.keyround.bits t.decryptBlock.fed.bits)[j] = s.recoveredByte n j := by
    rw [xorBlock_comm, hout]
  rw [State.Decrypted, t.decryptBlock_pt, t.decryptBlock_ptExt, t.decryptBlock_out]
  exact h.next hn t.decryptBlock_blkcnt t.decryptBlock_outlen t.decryptBlock_keyround hkeyround hout

/-- The loop of DECRYPT (R149, R181). -/
theorem State.Decrypted.decryptBlocks {s t : State} (h : s.Decrypted 0 t) (hct : t.ct = s.ct) :
    ∀ n, 32 * n ≤ 2 ^ 32 → s.Decrypted n (State.decryptBlocks n t)
  | 0, _ => h
  | n + 1, hn => by
    have ih := State.Decrypted.decryptBlocks h hct n (by omega)
    rw [State.decryptBlocks_succ]
    exact ih.decryptBlock ((State.decryptBlocks_ct n t).trans hct) (by omega)

/-- The state after the loop of a DECRYPT accepted with `len`. -/
def State.decryptLoop (len : Len) (s : State) : State :=
  State.decryptBlocks (s.ctLen.toNat / 32) (s.latch 0x9#4 len 2#5).initRun

theorem State.decryptLoop_frame (len : Len) (s : State) : (s.latch 0x9#4 len 2#5).DecryptFrame (s.decryptLoop len) := by
  have hinit : (s.latch 0x9#4 len 2#5).DecryptFrame (s.latch 0x9#4 len 2#5).initRun := rfl
  exact hinit.decryptBlocks _

/-- R_INIT starts the chain with K0 (R186), the loop goes on with every block (R145). -/
theorem State.decrypted_decryptLoop (len : Len) (s : State) : s.Decrypted (s.ctLen.toNat / 32) (s.decryptLoop len) := by
  have hinit : s.Decrypted 0 (s.latch 0x9#4 len 2#5).initRun :=
    ⟨rfl, rfl, rfl, s.derive_get, Memory.holdsBlocks_nil _, rfl⟩
  exact hinit.decryptBlocks rfl _ (blocks_le_words s.ctLen)

/-- `total` after the loop is that of R_INIT (R183). -/
theorem State.decryptLoop_total (len : Len) (s : State) : (s.decryptLoop len).total = .value (totalBytes s.ctLen) :=
  (State.decryptBlocks_total _ _).trans (State.initRun_total _)

/-! ### The strip -/

theorem totalBytes_toNat (l : Len) : (totalBytes l).toNat = 32 * (l.toNat / 32) := by
  have hword := l.isLt
  rw [totalBytes, BitVec.toNat_mul, blockCount_toNat, Nat.mul_comm]
  exact Nat.mod_eq_of_lt (show 32 * (l.toNat / 32) < 2 ^ 32 by omega)

/-- The strip after the loop of a text of at least one block, where PT holds its last byte (R214). -/
theorem State.strip_of_last {s : State} {l : Len} {p : Byte} (htotal : s.total.bits = totalBytes l)
    (hblock : 32 ≤ l.toNat) (hfits : l.toNat ≤ s.maxLen) (hlast : s.pt.lookup (32 * (l.toNat / 32) - 1) = some p) :
    s.strip = .next { s with
      padcnt := .value p
      pt := writeTerminator s.pt (totalBytes l) p
      outlen := .value (s.outlen.bits - p.setWidth 32) } := by
  have hindex : (s.total.bits - 1#32).toNat = 32 * (l.toNat / 32) - 1 := by
    have htot := totalBytes_toNat l
    rw [htotal]
    bv_omega
  rcases s.strip_cases with ⟨_, e⟩ | ⟨hout, _⟩
  · rw [e, hindex, htotal, Memory.byteAt_of_lookup hlast]
  · omega

/-- The state in which the strip leaves a DECRYPT accepted with `len` whose padding count is `p`. -/
def State.stripped (len : Len) (p : Byte) (s : State) : State :=
  { s.decryptLoop len with
    padcnt := .value p
    pt := writeTerminator (s.decryptLoop len).pt (totalBytes s.ctLen) p
    outlen := .value ((s.decryptLoop len).outlen.bits - p.setWidth 32) }

/-- A DECRYPT of at least one block that no precondition stops runs the loop and the strip and completes (R181). -/
theorem exec_decrypt_of_accepted (len : Len) {s : State} (hiv : s.ivLen ≠ 0#32) (hkey : s.keyLen ≠ 0#32)
    (hblock : 32 ≤ s.ctLen.toNat) (hfits : s.ctLen.toNat ≤ s.maxLen) {p : Byte}
    (hp : p = s.recoveredByte (s.ctLen.toNat / 32 - 1) 31) :
    exec (.decrypt len) s = .next
      (({ s.stripped len p with ptLen := (s.stripped len p).outlen.bits } : State).done
        (decide (32 * (s.ctLen.toNat / 32) < p.toNat)) (s.stripped len p).outlen.bits) := by
  have hset : ¬(s.ivLen = 0#32 ∨ s.keyLen = 0#32 ∨ s.ctLen = 0#32) := by
    have hct : s.ctLen ≠ 0#32 := by bv_omega
    tauto
  have hlast : (s.decryptLoop len).pt.lookup (32 * (s.ctLen.toNat / 32) - 1) = some p := by
    have hindex : 32 * (s.ctLen.toNat / 32) - 1 = 32 * (s.ctLen.toNat / 32 - 1) + (31 : Fin 32).val := by
      show _ = _ + 31
      omega
    rw [hindex, hp]
    exact (s.decrypted_decryptLoop len).output.inside _ (by omega) 31
  have hmax : (s.decryptLoop len).maxLen = s.maxLen := (s.decryptLoop_frame len).maxLen_eq
  have hstrip : (s.decryptLoop len).strip = .next (s.stripped len p) :=
    State.strip_of_last (congrArg Reg.bits (s.decryptLoop_total len)) hblock (by rwa [hmax]) hlast
  have htotal : (s.stripped len p).total.bits.toNat = 32 * (s.ctLen.toNat / 32) := by
    rw [← totalBytes_toNat]
    exact congrArg (fun r : Reg Len => r.bits.toNat) (s.decryptLoop_total len)
  rcases (s.latch 0x9#4 len 2#5).decryptCall_cases with ⟨h, _⟩ | ⟨_, h, _⟩ | ⟨_, _, ⟨t, ht, e⟩ | ⟨r, hr, _⟩⟩
  · exact absurd h hset
  · exact absurd hfits (Nat.not_le.mpr h)
  · rw [blockCount_toNat] at ht
    obtain rfl : s.stripped len p = t := Host.Outcome.next.inj (hstrip.symm.trans ht)
    rw [htotal] at e
    exact e
  · rw [blockCount_toNat] at hr
    cases hstrip.symm.trans hr

/-- `(m − p) mod 2^32` (R218). -/
theorem ofNat_sub_setWidth (m : Nat) (p : Byte) :
    BitVec.ofNat 32 m - p.setWidth 32 = BitVec.ofNat 32 (m + 2 ^ 32 - p.toNat) := by
  have hp := p.isLt
  apply BitVec.eq_of_toNat_eq
  rw [BitVec.toNat_sub, BitVec.toNat_ofNat, BitVec.toNat_ofNat, BitVec.toNat_setWidth]
  omega

/-- Settles O53: the closed form of the loop, the strip and the completion. -/
theorem decryptWritesTheRecoveredBlocksAndStrips : Obligations.DecryptWritesTheRecoveredBlocksAndStrips := by
  rintro len s n p rfl hp hiv hkey hblock hfits
  have hframe := s.decryptLoop_frame len
  obtain ⟨_, houtlen, hheld, hkeyround, ⟨hinside, houtside⟩, hext⟩ := s.decrypted_decryptLoop len
  have hresult : (s.stripped len p).outlen.bits = BitVec.ofNat 32 (32 * (s.ctLen.toNat / 32) + 2 ^ 32 - p.toNat) := by
    rw [State.stripped, Reg.value_bits, houtlen, ofNat_sub_setWidth]
  have hlookup (a : Nat) := writeTerminator_lookup (s.decryptLoop len).pt (totalBytes s.ctLen) p a
  simp only [totalBytes_toNat] at hlookup
  refine ⟨_, exec_decrypt_of_accepted len hiv hkey hblock hfits hp, ?_, fun i hi j => ?_, fun a ha => ?_, hheld,
    fun j => (hkeyround j).trans ?_⟩
  · rw [hresult, State.stripped]
    generalize s.decryptLoop len = v at hframe hext
    rw [hframe, hext]
    rfl
  · refine (hlookup _).trans ?_
    rw [hinside i hi j]
    exact if_congr (by omega) rfl rfl
  · refine (hlookup a).trans ?_
    rw [if_neg (by omega), houtside a ha]
  · obtain ⟨k, hk⟩ : ∃ k, s.ctLen.toNat / 32 = k + 1 := ⟨s.ctLen.toNat / 32 - 1, by omega⟩
    rw [hk]
    rfl

end Sys2Proof.Machine
end

section
/-! Two runs: DECRYPT of what ENCRYPT wrote (R146), and ENCRYPT of two texts that differ in block 0 (R148). -/

namespace Sys2Proof.Machine

/-! ### What ENCRYPT leaves for DECRYPT -/

/-- A byte met twice on the way drops out. -/
theorem xor_xor_xor_cancel (a b c : Byte) : (a ^^^ b) ^^^ (b ^^^ c) = c ^^^ a := by
  rw [BitVec.xor_assoc, ← BitVec.xor_assoc b, BitVec.xor_self, BitVec.zero_xor, BitVec.xor_comm]

/-- `t` has the KEY and IV of `s`, and CT holds the permuted chain of the plaintext of `s` in its first `n` blocks. -/
structure State.HoldsCiphertextOf (t s : State) (n : Nat) : Prop where
  key : t.key = s.key
  iv : t.iv = s.iv
  ct : ∀ i < n, ∀ j : Fin 32, t.ct.lookup (32 * i + j.val) = some (s.fedByte i (mirrorIndex j))

section HoldsCiphertextOf

variable {s t : State} {n : Nat} (h : t.HoldsCiphertextOf s n)
include h

theorem State.HoldsCiphertextOf.k0Byte (j : Fin 32) : t.k0Byte j = s.k0Byte j := by
  rw [State.k0Byte, h.key, h.iv, State.k0Byte]

/-- G_i of the ciphertext is F_i: the permutation undoes itself (R168). -/
theorem State.HoldsCiphertextOf.unpermutedByte {i : Nat} (hi : i < n) (j : Fin 32) :
    t.unpermutedByte i j = s.fedByte i j := by
  rw [State.unpermutedByte, Memory.byteAt_of_lookup (h.ct i hi _), mirrorIndex_mirrorIndex]

/-- R146, block by block: Q_0 = F_0 xor K0, Q_1 = Q_0 xor F_1 and Q_(i+2) = Q_i xor F_(i+1) xor F_(i+2), where each F
is the one before xor its plaintext block. -/
theorem State.HoldsCiphertextOf.recoveredByte (j : Fin 32) : ∀ i < n, t.recoveredByte i j = s.roundTripByte i j
  | 0, hi => by
    calc t.unpermutedByte 0 j ^^^ t.k0Byte j
      _ = (s.plainByte 0 j ^^^ s.k0Byte j) ^^^ s.k0Byte j := by
        rw [h.unpermutedByte hi, h.k0Byte, State.fedByte, BitVec.xor_comm (s.k0Byte j)]
      _ = s.plainByte 0 j := by rw [BitVec.xor_assoc, BitVec.xor_self, BitVec.xor_zero]
  | 1, hi => by
    calc (t.unpermutedByte 0 j ^^^ t.k0Byte j) ^^^ t.unpermutedByte 1 j
      _ = (s.k0Byte j ^^^ s.fedByte 0 j) ^^^ (s.fedByte 0 j ^^^ s.plainByte 1 j) := by
        rw [h.unpermutedByte (i := 0) (by omega), h.unpermutedByte hi, h.k0Byte, BitVec.xor_comm (s.k0Byte j),
          s.fedByte_succ 0]
      _ = s.plainByte 1 j ^^^ s.k0Byte j := xor_xor_xor_cancel _ _ _
  | i + 2, hi => by
    calc (t.recoveredByte i j ^^^ t.unpermutedByte (i + 1) j) ^^^ t.unpermutedByte (i + 2) j
      _ = (s.roundTripByte i j ^^^ s.fedByte (i + 1) j) ^^^ (s.fedByte (i + 1) j ^^^ s.plainByte (i + 2) j) := by
        rw [State.HoldsCiphertextOf.recoveredByte j i (by omega), h.unpermutedByte (i := i + 1) (by omega),
          h.unpermutedByte hi, s.fedByte_succ (i + 1)]
      _ = s.plainByte (i + 2) j ^^^ s.roundTripByte i j := xor_xor_xor_cancel _ _ _

end HoldsCiphertextOf

/-- Settles O57: O53 on the state that O52 gives, where the recovered blocks are those of R146. -/
theorem decryptOfEncryptRecoversWhatTheChainAllows : Obligations.DecryptOfEncryptRecoversWhatTheChainAllows := by
  rintro len len' s n p hn hp hiv hkey hblock hfits
  have hpt : s.ptLen ≠ 0#32 := by bv_omega
  obtain ⟨t, ht, hframe, hct, _⟩ := encryptWritesThePermutedChain len s n hn hiv hkey hpt hfits
  have hcipher : t.HoldsCiphertextOf s n := ⟨by rw [hframe], by rw [hframe], hct⟩
  have hctLen : t.ctLen.toNat = 32 * n := by
    have hword := s.ptLen.isLt
    rw [hframe, BitVec.toNat_ofNat]
    omega
  have hrecovered (i : Nat) (hi : i < n) (j : Fin 32) := hcipher.recoveredByte j i hi
  have hmax : t.maxLen = s.maxLen := by rw [hframe]
  obtain ⟨u, hu, hframe', hin, _, _, hkeyround⟩ :=
    decryptWritesTheRecoveredBlocksAndStrips len' t n p (by omega) (by rw [hrecovered _ (by omega), hp])
      (by rwa [hframe]) (by rwa [hframe]) (by omega) (by omega)
  refine ⟨t, u, ht, hu, by rw [hframe'], by rw [hframe'], by rw [hframe'], fun i hi j hkept => ?_, fun j => ?_,
    hrecovered⟩
  · rw [hin i hi j, if_neg hkept, hrecovered i hi j]
  · rw [hkeyround j, hrecovered _ (by omega)]

/-! ### A difference in block 0 -/

/-- A difference in P_0 alone stays in every F_i (R148). -/
theorem State.fedByte_of_difference {s s' : State} {n : Nat} {delta : Block} (hkey : s.key = s'.key)
    (hiv : s.iv = s'.iv) (hzero : ∀ j : Fin 32, s'.plainByte 0 j = s.plainByte 0 j ^^^ delta[j])
    (hrest : ∀ i, 0 < i → i < n → ∀ j : Fin 32, s'.plainByte i j = s.plainByte i j) (j : Fin 32) :
    ∀ i < n, s'.fedByte i j = s.fedByte i j ^^^ delta[j]
  | 0, _ => by
    rw [State.fedByte, State.fedByte, hzero, State.k0Byte, ← hkey, ← hiv, ← BitVec.xor_assoc]
    rfl
  | i + 1, hi => by
    rw [s'.fedByte_succ, s.fedByte_succ, hrest (i + 1) (by omega) hi,
      State.fedByte_of_difference hkey hiv hzero hrest j i (by omega), BitVec.xor_assoc, BitVec.xor_assoc,
      BitVec.xor_comm delta[j]]

/-- Settles O59: both ciphertexts in the closed form of O52. -/
theorem differenceInBlockZeroReachesEveryBlock : Obligations.DifferenceInBlockZeroReachesEveryBlock := by
  intro len s s' t t' n delta hn hkey hiv hlen hmax hivSet hkeySet hpt hfits hivSet' hkeySet' hzero hrest ht ht' i hi j
  obtain ⟨u, hu, _, hct, _⟩ := encryptWritesThePermutedChain len s n hn hivSet hkeySet hpt hfits
  obtain ⟨u', hu', _, hct', _⟩ :=
    encryptWritesThePermutedChain len s' n (hlen ▸ hn) hivSet' hkeySet' (hlen ▸ hpt) (by rwa [← hlen, ← hmax])
  obtain rfl : u = t := Host.Outcome.next.inj (hu.symm.trans ht)
  obtain rfl : u' = t' := Host.Outcome.next.inj (hu'.symm.trans ht')
  rw [Memory.byteAt_of_lookup (hct i hi j), Memory.byteAt_of_lookup (hct' i hi j),
    State.fedByte_of_difference hkey hiv hzero hrest _ i hi]

end Sys2Proof.Machine
end

section
/-! The matrix micro-steps in a row (42_matrix.md): either permutation after either undoes it, and load, permute,
export mirrors a block (R168, R169). -/

namespace Sys2Proof.Machine

/-- PERMUTE twice moves every cell back: two rows down twice is four, and the columns are mirrored twice (R168). -/
theorem permute_permute (m : Matrix) : permute (permute m) = m := by
  apply Matrix.ext_cells
  intro r c
  have hrow : r + 2 + 2 = r := by revert r; decide
  have hcol : 7 - (7 - c) = c := by revert c; decide
  simp only [permute_get, hrow, hcol]

/-- E_PERM and D_INVPERM both leave the permuted matrix (R192, R198, R166). -/
theorem matrix_bits_of_exec_permutation {s t : State} {i : Instr} (hi : i = .ePerm ∨ i = .dInvperm)
    (h : exec i s = .next t) : t.matrix.bits = permute s.matrix.bits := by
  rcases hi with rfl | rfl
  · obtain rfl := Host.Outcome.next.inj h
    rfl
  · obtain rfl := Host.Outcome.next.inj h
    exact invPermute_eq_permute s.matrix.bits

/-- Settles O47: each of the two steps permutes the matrix, and PERMUTE twice is the identity. -/
theorem permutationIsAnInvolution : Obligations.PermutationIsAnInvolution := by
  intro s t u i j hi hj ht hu
  rw [matrix_bits_of_exec_permutation hj hu, matrix_bits_of_exec_permutation hi ht, permute_permute]

/-- Settles O48: the byte that EXPORT of the permuted matrix gives, on each direction. -/
theorem loadPermuteExportMirrorsTheBlock : Obligations.LoadPermuteExportMirrorsTheBlock := by
  intro s
  refine ⟨⟨_, _, _, rfl, rfl, rfl, fun j => ?_⟩, ⟨_, _, _, rfl, rfl, rfl, fun j => ?_⟩⟩
  · exact exportMatrix_permute_loadMatrix_get s.fed.bits j
  · simp only [Reg.value_bits, invPermute_eq_permute]
    exact exportMatrix_permute_loadMatrix_get s.blk.bits j

end Sys2Proof.Machine
end

section
/-! The micro-steps of the control (43_block_driver.md): IDLE, R_CHECK, R_INIT, R_TEST, R_NEXT and R_DONE (R212, R185 to
R187, R203, R205), and the run commands that their preconditions stop (R182). -/

namespace Sys2Proof.Machine

/-! ### IDLE -/

/-- The class bit of a header: `op[3]` is bit 35 (R90). -/
theorem opField_classBit (h : Header) : (opField h).getLsbD 3 = h.getLsbD 35 := by
  rw [opField, BitVec.getLsbD_extractLsb']
  rfl

theorem execIdle_of_nil {s : State} (hc : s.cmdPort = []) : execIdle s = .next s := by
  rw [execIdle, hc]

/-- IDLE takes the header presented and latches it (R212). -/
theorem execIdle_of_cons {s : State} {h : Header} {rest : List Header} (hc : s.cmdPort = h :: rest) :
    execIdle s = .next (({ s with cmdPort := rest } : State).latch (opField h) (lenField h)
      (if h.getLsbD 35 then 2#5 else 1#5)) := by
  rw [execIdle, hc, ← opField_classBit]

/-- Settles O33, by what is on the command port. -/
theorem idleAcceptsThePresentedPacket : Obligations.IdleAcceptsThePresentedPacket :=
  fun _ => ⟨execIdle_of_nil, fun _ _ => execIdle_of_cons⟩

/-! ### R_CHECK and the preconditions of the run commands -/

/-- A failure while a run command is latched reports SENTINEL (R230). -/
theorem State.fail_of_run {s : State} (hclass : s.op.bits.getLsbD 3 = true) (c : Cause) :
    s.fail c = s.complete false c false Config.sentinel := by
  rw [State.fail, failValue_of_run hclass]

/-- The run codes whose selector R_CHECK lets pass are those of ENCRYPT and DECRYPT (R92, R96). -/
theorem run_code_of_selector {op : BitVec 4} (hclass : op.getLsbD 3 = true)
    (hsel : ¬ 2 ≤ (op.extractLsb' 0 3).toNat) : op = 0x8#4 ∨ op = 0x9#4 := by
  revert op
  decide

/-- Settles O34: a reserved selector fails at once, and the two others are tested against their own input length. -/
theorem rCheckTestsInOrder : Obligations.RCheckTestsInOrder := by
  intro s l hclass hencrypt hdecrypt
  by_cases hsel : 2 ≤ (s.op.bits.extractLsb' 0 3).toNat
  · rw [if_pos hsel]
    exact (execRCheck_of_reserved hsel).trans (congrArg Host.Outcome.next (State.fail_of_run hclass .badcmd))
  · have hop := run_code_of_selector hclass hsel
    obtain rfl : s.inputLen = l := by
      rcases hop with h | h
      · rw [State.inputLen_of_encrypt h, hencrypt h]
      · rw [State.inputLen_of_decrypt h, hdecrypt h]
    rw [if_neg hsel]
    refine (execRCheck_of_run hop).trans ?_
    rw [State.fail_of_run hclass, State.fail_of_run hclass]
    rfl

/-- A test that stops a run command with input length `l` answers `c` (R182, R185): PRECOND, then CAPACITY. -/
def State.RunFailsWith (s : State) (l : Len) (c : Cause) : Prop :=
  (c = .precond ∧ (s.ivLen = 0#32 ∨ s.keyLen = 0#32 ∨ l = 0#32)) ∨
  (c = .capacity ∧ ¬(s.ivLen = 0#32 ∨ s.keyLen = 0#32 ∨ l = 0#32) ∧ s.maxLen < l.toNat)

theorem State.encryptCall_of_fails {s : State} {c : Cause} (h : s.RunFailsWith s.ptLen c) :
    s.encryptCall = s.fail c := by
  rcases h with ⟨rfl, hunset⟩ | ⟨rfl, hset, hlong⟩
  · exact if_pos hunset
  · exact (if_neg hset).trans (if_pos hlong)

theorem State.decryptCall_of_fails {s : State} {c : Cause} (h : s.RunFailsWith s.ctLen c) :
    s.decryptCall = .next (s.fail c) := by
  rcases h with ⟨rfl, hunset⟩ | ⟨rfl, hset, hlong⟩
  · exact if_pos hunset
  · exact (if_neg hset).trans (if_pos hlong)

/-- Settles O51: the failure of the latched state. -/
theorem runCommandsFailBeforeTouchingAnything : Obligations.RunCommandsFailBeforeTouchingAnything := by
  refine fun len s c => ⟨fun h => ?_, fun h => ?_⟩
  · have hcall := State.encryptCall_of_fails (s := s.latch 0x8#4 len 2#5) h
    exact congrArg Host.Outcome.next
      (hcall.trans (State.fail_latch c 0x8#4 len 2#5 (failValue_of_run (by decide)) s))
  · have hcall := State.decryptCall_of_fails (s := s.latch 0x9#4 len 2#5) h
    exact hcall.trans (congrArg Host.Outcome.next
      (State.fail_latch c 0x9#4 len 2#5 (failValue_of_run (by decide)) s))

/-! ### R_INIT -/

theorem blockCount_eq_ofNat (l : Len) : blockCount l = BitVec.ofNat 32 (l.toNat / 32) := by
  rw [← blockCount_toNat, BitVec.ofNat_toNat, BitVec.setWidth_eq]

theorem totalBytes_eq_ofNat (l : Len) : totalBytes l = BitVec.ofNat 32 (l.toNat / 32 * 32) := by
  rw [totalBytes, blockCount_eq_ofNat, BitVec.ofNat_mul]

/-- R_INIT's writes but for the output buffer (R186), where the input text has length `l`. -/
def State.runPrepared (l : Len) (s : State) : State :=
  { s with
    keyround := .value (derive s.key.bits s.iv.bits)
    matrix := .value zeroMatrix
    nmemb := .value (BitVec.ofNat 32 (l.toNat / 32))
    total := .value (BitVec.ofNat 32 (l.toNat / 32 * 32))
    blkcnt := .value 0#32
    outlen := .value 0#32 }

theorem State.initRun_of_encrypt {s : State} (hop : s.op.bits = 0x8#4) :
    s.initRun = (s.runPrepared s.ptLen).allocCt := by
  rw [State.initRun, if_pos hop, State.inputLen_of_encrypt hop, blockCount_eq_ofNat, totalBytes_eq_ofNat]
  rfl

theorem State.initRun_of_decrypt {s : State} (hop : s.op.bits = 0x9#4) :
    s.initRun = (s.runPrepared s.ctLen).allocPt := by
  rw [State.initRun, if_neg (by rw [hop]; decide), State.inputLen_of_decrypt hop, blockCount_eq_ofNat,
    totalBytes_eq_ofNat]
  rfl

/-- Settles O35: both codes prepare the run alike and empty their own output buffer. -/
theorem rInitPreparesTheRun : Obligations.RInitPreparesTheRun := by
  refine fun s => ⟨fun hop => ⟨(s.runPrepared s.ptLen).allocCt.setPhase 4#5, ?_, ?_, s.derive_get, zeroMatrix_get⟩,
    fun hop => ⟨(s.runPrepared s.ctLen).allocPt.setPhase 4#5, ?_, ?_, s.derive_get, zeroMatrix_get⟩⟩
  · rw [← State.initRun_of_encrypt hop]
    rfl
  · simp only [State.setPhase, State.allocCt, State.runPrepared, Reg.value]
  · rw [← State.initRun_of_decrypt hop]
    rfl
  · simp only [State.setPhase, State.allocPt, State.runPrepared, Reg.value]

/-! ### The loop test, the counters and the completion -/

/-- Settles O36, by the code in OP. -/
theorem rTestBranchesOnTheBlockCount : Obligations.RTestBranchesOnTheBlockCount := by
  refine fun s => ⟨fun hop => ?_, fun hop => ?_⟩
  · show execRTest s = _
    rw [execRTest, if_pos hop, if_pos hop]
  · show execRTest s = _
    rw [execRTest, if_neg hop, if_neg hop]

/-- Settles O37: both sums are those of 32-bit words. -/
theorem rNextAdvancesTheCounters : Obligations.RNextAdvancesTheCounters := fun _ => rfl

/-- R_DONE of any code but that of ENCRYPT (R205): PADUF stays 0 unless the code is that of DECRYPT. -/
theorem State.finishRun_of_ne_encrypt {s : State} (hop : s.op.bits ≠ 0x8#4) :
    s.finishRun = ({ s with ptLen := s.outlen.bits } : State).done
      (decide (s.op.bits = 0x9#4 ∧ s.total.bits.toNat < s.padcnt.bits.toNat)) s.outlen.bits := by
  rw [State.finishRun, if_neg hop, padUnderflow, Bool.decide_and]

/-- Settles O38, by the code in OP. -/
theorem rDoneWritesBackTheLength : Obligations.RDoneWritesBackTheLength :=
  fun _ => ⟨fun hop => congrArg Host.Outcome.next (State.finishRun_of_encrypt hop),
    fun hop => congrArg Host.Outcome.next (State.finishRun_of_ne_encrypt hop)⟩

end Sys2Proof.Machine
end

section
/-! The micro-steps of the data path (43_block_driver.md): the copies between BLK, OUT and the buffers, the XOR and chain
steps, the matrix steps, and the strip (R188 to R202, R204). -/

namespace Sys2Proof.Machine

/-! ### Copies -/

section Copies

variable {s : State} {at32 : Nat} (hat : at32 = 32 * s.blkcnt.bits.toNat) (hfits : at32 + 32 ≤ s.maxLen)
  (hmax : s.maxLen ≤ 2 ^ 31)
include hat hfits hmax

/-- The index of a block inside a buffer does not wrap (R63). -/
theorem State.blockIndex_toNat_of_inside : s.blockIndex.toNat = at32 := by
  rw [State.blockIndex, BitVec.toNat_mul, hat]
  exact Nat.mod_eq_of_lt (show 32 * s.blkcnt.bits.toNat < 2 ^ 32 by omega)

theorem State.blockInBuffer_of_inside : s.blockInBuffer s.blockIndex = true := by
  rw [State.blockInBuffer, State.blockIndex_toNat_of_inside hat hfits hmax]
  exact decide_eq_true hfits

/-- The extent that a copy out sets (R194, R201). -/
theorem State.blockIndex_add_of_inside : s.blockIndex + 32#32 = BitVec.ofNat 32 (at32 + 32) := by
  rw [BitVec.add_def, State.blockIndex_toNat_of_inside hat hfits hmax]
  rfl

end Copies

/-- `MemRead` of 32 bytes that hold a value gives them (R15). -/
theorem Memory.readBlock_of_lookup {m : Memory} {a : Nat} {b : Block}
    (h : ∀ j : Fin 32, m.lookup (a + j.val) = some b[j]) (buffer : Buffer) : m.readBlock buffer a = b := by
  apply Vector.ext
  intro k hk
  rw [Memory.readBlock_get, Memory.byteAt_of_lookup (h ⟨k, hk⟩)]
  rfl

/-- Settles O39: the copy of a block inside the buffer, whose bytes hold values. -/
theorem copyInReadsTheBlock : Obligations.CopyInReadsTheBlock := by
  intro s at32 hat hfits hmax
  have hindex := State.blockIndex_toNat_of_inside hat hfits hmax
  have hinside := State.blockInBuffer_of_inside hat hfits hmax
  refine ⟨fun b hb => (execECopyin_next hinside).trans ?_, fun b hb => (execDCopyin_next hinside).trans ?_⟩
  · rw [hindex, Memory.readBlock_of_lookup hb]
    rfl
  · rw [hindex, Memory.readBlock_of_lookup hb]
    rfl

/-- Settles O40: the copy of a block inside the buffer, read back byte by byte. -/
theorem copyOutWritesTheBlock : Obligations.CopyOutWritesTheBlock := by
  intro s at32 hat hfits hmax
  have hindex := State.blockIndex_toNat_of_inside hat hfits hmax
  have hext := State.blockIndex_add_of_inside hat hfits hmax
  have hinside := State.blockInBuffer_of_inside hat hfits hmax
  have hencrypt := execECopyout_next hinside
  have hdecrypt := execDCopyout_next hinside
  rw [hindex, hext] at hencrypt hdecrypt
  exact ⟨⟨_, hencrypt, rfl, Memory.lookup_writeBlock _ _ _, fun _ => Memory.lookup_writeBlock_of_outside _ _ _⟩,
    ⟨_, hdecrypt, rfl, Memory.lookup_writeBlock _ _ _, fun _ => Memory.lookup_writeBlock_of_outside _ _ _⟩⟩

/-! ### The keystream -/

/-- Settles O42: each lane of the XOR (R141). -/
theorem xorStepsCombineWithKeyround : Obligations.XorStepsCombineWithKeyround :=
  fun _ => ⟨⟨_, rfl, rfl, fun j => xorBlock_get _ _ j.val j.isLt⟩,
    ⟨_, rfl, rfl, fun j => xorBlock_get _ _ j.val j.isLt⟩⟩

/-- Settles O43: the reading of DEC_CHAIN that this hardware takes is XOR_FED (R144). -/
theorem chainStepsAdvanceKeyround : Obligations.ChainStepsAdvanceKeyround :=
  fun _ => ⟨rfl, _, rfl, rfl, fun j => xorBlock_get _ _ j.val j.isLt⟩

/-! ### The matrix -/

/-- LOAD keeps the signed value of each byte (R161). -/
theorem loadMatrix_toInt (b : Block) (r : Fin 4) (c : Fin 8) :
    ((loadMatrix b)[r][c]).toInt = (b[cellIndex r c]).toInt := by
  rw [loadMatrix_get, BitVec.toInt_signExtend_of_le (by decide)]

/-- Settles O44: LOAD of FED and of BLK. -/
theorem loadStepsFillTheMatrix : Obligations.LoadStepsFillTheMatrix :=
  fun s => ⟨⟨_, rfl, rfl, loadMatrix_toInt s.fed.bits⟩, ⟨_, rfl, rfl, loadMatrix_toInt s.blk.bits⟩⟩

/-- The column that PERMUTE takes a cell from, as a number (R165). -/
theorem mirrored_col_val (c : Fin 8) : (7 - c).val = 7 - c.val := by
  revert c
  decide

/-- PERMUTE cell by cell, with row and column as numbers (R165). -/
theorem permute_get_val (m : Matrix) (r : Fin 4) (c : Fin 8) :
    (permute m)[r][c] = (m[(r.val + 2) % 4]'(Nat.mod_lt _ (by decide)))[7 - c.val]'(by omega) := by
  rw [permute_get]
  simp only [Fin.getElem_fin, mirrored_col_val]
  rfl

/-- Settles O45: INVPERMUTE is PERMUTE (R166). -/
theorem permutationStepsMoveEveryCell : Obligations.PermutationStepsMoveEveryCell :=
  fun s => ⟨⟨_, rfl, rfl, permute_get_val s.matrix.bits⟩, ⟨_, rfl, rfl, permute_get_val s.matrix.bits⟩⟩

theorem cellRow_cellIndex (r : Fin 4) (c : Fin 8) : cellRow (cellIndex r c) = r := by
  revert r c
  decide

theorem cellCol_cellIndex (r : Fin 4) (c : Fin 8) : cellCol (cellIndex r c) = c := by
  revert r c
  decide

/-- EXPORT cell by cell (R167). -/
theorem exportMatrix_cellIndex (m : Matrix) (r : Fin 4) (c : Fin 8) :
    (exportMatrix m)[cellIndex r c] = (m[r][c]).extractLsb' 0 8 := by
  rw [exportMatrix_get, BitVec.setWidth_eq_extractLsb' (by decide)]
  simp only [cellRow_cellIndex, cellCol_cellIndex]

/-- Settles O46: EXPORT to OUT and to FED. -/
theorem exportStepsWriteTheLowBytes : Obligations.ExportStepsWriteTheLowBytes :=
  fun s => ⟨⟨_, rfl, rfl, exportMatrix_cellIndex s.matrix.bits⟩,
    ⟨_, rfl, rfl, exportMatrix_cellIndex s.matrix.bits⟩⟩

/-! ### The strip -/

/-- The strip where PT holds the byte at TOTAL − 1, whatever TOTAL is (R214). -/
theorem State.strip_of_lookup {s : State} {p : Byte} (hpos : 1 ≤ s.total.bits.toNat)
    (hfits : s.total.bits.toNat ≤ s.maxLen) (hlast : s.pt.lookup (s.total.bits.toNat - 1) = some p) :
    s.strip = .next { s with
      padcnt := .value p
      pt := writeTerminator s.pt s.total.bits p
      outlen := .value (s.outlen.bits - p.setWidth 32) } := by
  have hindex : (s.total.bits - 1#32).toNat = s.total.bits.toNat - 1 := by bv_omega
  rcases s.strip_cases with ⟨_, e⟩ | ⟨hout, _⟩
  · rw [e, hindex, Memory.byteAt_of_lookup hlast]
  · omega

/-- Settles O50: the strip, then a read of the terminator. -/
theorem stripRemovesThePadding : Obligations.StripRemovesThePadding := by
  intro s p hpos hfits hlast
  have houtlen : s.outlen.bits - p.setWidth 32 = BitVec.ofNat 32 (s.outlen.bits.toNat + 2 ^ 32 - p.toNat) := by
    rw [← ofNat_sub_setWidth, BitVec.ofNat_toNat, BitVec.setWidth_eq]
  have hstrip := State.strip_of_lookup hpos hfits hlast
  rw [houtlen] at hstrip
  refine ⟨_, execDStrip_setPhase_of_next s.phase hstrip, rfl, fun a => ?_⟩
  refine (writeTerminator_lookup s.pt s.total.bits p a).trans (if_congr ?_ rfl rfl)
  rw [and_assoc, eq_comm (a := a)]

end Sys2Proof.Machine
end

section
/-! Reset (R251): it gives the values of the reset state from any state, and no step without it takes KEY_LEN or IV_LEN
from 32 back. -/

namespace Sys2Proof.Machine

/-! ### What the reset input gives -/

/-- While the reset input is asserted a step gives the reset state (R250). -/
theorem step_of_reset {s : State} (hr : s.resetIn = true) : step s = .next s.toReset := if_pos hr

/-- STATUS in IDLE with no completion reported: every bit is 0 (R32). -/
theorem State.statusWord_of_clear {s : State} (hp : s.phase = 0#5) (hstatus : s.status = ⟨false, .none, false⟩) :
    s.statusWord = 0#32 := by
  rw [State.statusWord, State.busy, hp, hstatus]
  decide

/-! ### KEY and IV stay set without a reset -/

/-- KEY and IV are set in `t` if they are set in `s` (R21, R22). -/
structure State.KeyIvStaySet (s t : State) : Prop where
  keyLen : s.keyLen = 32#32 → t.keyLen = 32#32
  ivLen : s.ivLen = 32#32 → t.ivLen = 32#32

theorem State.KeyIvStaySet.trans {s t u : State} (h : s.KeyIvStaySet t) (h' : t.KeyIvStaySet u) :
    s.KeyIvStaySet u :=
  ⟨h'.keyLen ∘ h.keyLen, h'.ivLen ∘ h.ivLen⟩

/-- SET_IV writes IV_LEN only to set it (R121). -/
theorem State.keyIvStaySet_updateIv (s : State) : s.KeyIvStaySet s.updateIv := by
  rcases s.updateIv_cases with ⟨_, e⟩ | ⟨b, rest, _, ⟨_, e⟩ | ⟨_, e⟩⟩ <;> rw [e]
  · exact ⟨id, id⟩
  · exact ⟨id, id⟩
  · exact ⟨id, fun _ => rfl⟩

/-- SET_KEY writes KEY_LEN only to set it (R122). -/
theorem State.keyIvStaySet_updateKey (s : State) : s.KeyIvStaySet s.updateKey := by
  rcases s.updateKey_cases with ⟨_, e⟩ | ⟨b, rest, _, ⟨_, e⟩ | ⟨_, e⟩⟩ <;> rw [e]
  · exact ⟨id, id⟩
  · exact ⟨id, id⟩
  · exact ⟨fun _ => rfl, id⟩

theorem State.keyIvStaySet_updatePlaintext (s : State) : s.KeyIvStaySet s.updatePlaintext := by
  rcases s.updatePlaintext_cases with ⟨_, e⟩ | ⟨_, _, e⟩ | ⟨_, _, ⟨_, e⟩ | ⟨bs, rest, _, _, e⟩⟩ <;>
    rw [e] <;> exact ⟨id, id⟩

theorem State.keyIvStaySet_updateCiphertext (s : State) : s.KeyIvStaySet s.updateCiphertext := by
  rcases s.updateCiphertext_cases with ⟨_, e⟩ | ⟨_, _, e⟩ | ⟨_, _, ⟨_, e⟩ | ⟨bs, rest, _, _, e⟩⟩ <;>
    rw [e] <;> exact ⟨id, id⟩

theorem State.keyIvStaySet_initRun (s : State) : s.KeyIvStaySet s.initRun := by
  rw [State.initRun]
  split <;> exact ⟨id, id⟩

theorem State.EncryptFrame.keyIvStaySet {s t : State} (h : s.EncryptFrame t) : s.KeyIvStaySet t := by
  rw [h]
  exact ⟨id, id⟩

theorem State.DecryptFrame.keyIvStaySet {s t : State} (h : s.DecryptFrame t) : s.KeyIvStaySet t := by
  rw [h]
  exact ⟨id, id⟩

theorem State.keyIvStaySet_finishRun (s : State) : s.KeyIvStaySet s.finishRun := by
  rw [State.finishRun]
  split <;> exact ⟨id, id⟩

theorem State.keyIvStaySet_encryptCall (s : State) : s.KeyIvStaySet s.encryptCall := by
  rcases s.encryptCall_cases with ⟨_, e⟩ | ⟨_, _, e⟩ | ⟨_, _, e⟩ <;> rw [e]
  · exact ⟨id, id⟩
  · exact ⟨id, id⟩
  · have hloop := (State.EncryptFrame.refl s.initRun).encryptBlocks (blockCount s.ptLen).toNat
    obtain ⟨hkey, hiv⟩ := s.keyIvStaySet_initRun.trans hloop.keyIvStaySet
    exact ⟨hkey, hiv⟩

/-- If the outcome is a next state, KEY and IV stay set in it. -/
def State.KeepsKeyIvSet (s : State) (o : Host.Outcome State Fault Refusal) : Prop :=
  ∀ t, o = .next t → s.KeyIvStaySet t

theorem State.KeyIvStaySet.next {s t : State} (h : s.KeyIvStaySet t) : s.KeepsKeyIvSet (.next t) := by
  rintro _ ⟨⟩
  exact h

theorem State.keepsKeyIvSet_fault (s : State) (r : Fault) : s.KeepsKeyIvSet (.fault r) := by
  rintro _ ⟨⟩

theorem State.keepsKeyIvSet_strip (s : State) : s.KeepsKeyIvSet s.strip := by
  rcases s.strip_cases with ⟨_, e⟩ | ⟨_, e⟩ <;> rw [e]
  · exact State.KeyIvStaySet.next ⟨id, id⟩
  · exact s.keepsKeyIvSet_fault _

theorem State.keepsKeyIvSet_decryptCall (s : State) : s.KeepsKeyIvSet s.decryptCall := by
  rcases s.decryptCall_cases with ⟨_, e⟩ | ⟨_, _, e⟩ | ⟨_, _, ⟨t, hstrip, e⟩ | ⟨r, _, e⟩⟩ <;> rw [e]
  · exact State.KeyIvStaySet.next ⟨id, id⟩
  · exact State.KeyIvStaySet.next ⟨id, id⟩
  · have hloop := (State.DecryptFrame.refl s.initRun).decryptBlocks (blockCount s.ctLen).toNat
    have hrun := s.keyIvStaySet_initRun.trans hloop.keyIvStaySet
    obtain ⟨hkey, hiv⟩ := hrun.trans (State.keepsKeyIvSet_strip _ t hstrip)
    exact State.KeyIvStaySet.next ⟨hkey, hiv⟩
  · exact s.keepsKeyIvSet_fault r

theorem State.keepsKeyIvSet_dStrip (s : State) : s.KeepsKeyIvSet (execDStrip s) := by
  rcases s.strip_cases with ⟨_, e⟩ | ⟨_, e⟩ <;> rw [execDStrip, e]
  · exact State.KeyIvStaySet.next ⟨id, id⟩
  · exact s.keepsKeyIvSet_fault _

theorem State.keepsKeyIvSet_upd (s : State) : s.KeepsKeyIvSet (execUpd s) := by
  rcases execUpd_cases s with e | e | e | e | e <;> rw [e]
  · exact s.keyIvStaySet_updateIv.next
  · exact s.keyIvStaySet_updateKey.next
  · exact s.keyIvStaySet_updatePlaintext.next
  · exact s.keyIvStaySet_updateCiphertext.next
  · exact State.KeyIvStaySet.next ⟨id, id⟩

theorem State.keepsKeyIvSet_idle (s : State) : s.KeepsKeyIvSet (execIdle s) := by
  rw [execIdle]
  split <;> exact State.KeyIvStaySet.next ⟨id, id⟩

theorem State.keepsKeyIvSet_rCheck (s : State) : s.KeepsKeyIvSet (execRCheck s) := by
  refine State.KeyIvStaySet.next ?_
  split_ifs <;> exact ⟨id, id⟩

theorem State.keepsKeyIvSet_rInit (s : State) : s.KeepsKeyIvSet (execRInit s) := by
  obtain ⟨hkey, hiv⟩ := s.keyIvStaySet_initRun
  exact State.KeyIvStaySet.next ⟨hkey, hiv⟩

/-- A micro-step guarded by `blockInBuffer` keeps KEY and IV set if its effect does. -/
theorem State.keepsKeyIvSet_guarded {s t : State} {r : Fault} (b : Bool) (h : s.KeyIvStaySet t) :
    s.KeepsKeyIvSet (if b then .next t else .fault r) := by
  cases b
  · exact s.keepsKeyIvSet_fault r
  · exact h.next

/-- No instruction takes KEY_LEN or IV_LEN from 32 back (R251). -/
theorem exec_keepsKeyIvSet (i : Instr) (s : State) : s.KeepsKeyIvSet (exec i s) := by
  have hlatch (op : BitVec 4) (len : Len) (p : PhaseCode) : s.KeyIvStaySet (s.latch op len p) := ⟨id, id⟩
  cases i with
  | setIv len => exact ((hlatch _ _ _).trans (State.keyIvStaySet_updateIv _)).next
  | setKey len => exact ((hlatch _ _ _).trans (State.keyIvStaySet_updateKey _)).next
  | setPlaintext len => exact ((hlatch _ _ _).trans (State.keyIvStaySet_updatePlaintext _)).next
  | setCiphertext len => exact ((hlatch _ _ _).trans (State.keyIvStaySet_updateCiphertext _)).next
  | encrypt len => exact ((hlatch _ _ _).trans (State.keyIvStaySet_encryptCall _)).next
  | decrypt len => exact fun t h => (hlatch _ _ _).trans (State.keepsKeyIvSet_decryptCall _ t h)
  | idle => exact s.keepsKeyIvSet_idle
  | upd => exact s.keepsKeyIvSet_upd
  | rCheck => exact s.keepsKeyIvSet_rCheck
  | rInit => exact s.keepsKeyIvSet_rInit
  | dStrip => exact s.keepsKeyIvSet_dStrip
  | rDone => exact s.keyIvStaySet_finishRun.next
  | eCopyin | eCopyout | dCopyin | dCopyout => exact State.keepsKeyIvSet_guarded _ ⟨id, id⟩
  | updOther | runRsvdLow | runRsvdHigh | rTest | eXor | eChain | eLoad | ePerm | eExport | dLoad | dInvperm
  | dExport | dXor | dChain | rNext => exact State.KeyIvStaySet.next ⟨id, id⟩

/-- With the reset input released a step runs an instruction, past the header it may take (R30, R103). -/
theorem step_keepsKeyIvSet {s : State} (hr : s.resetIn = false) : s.KeepsKeyIvSet (step s) := by
  rcases step_cases s with ⟨hr', _⟩ | ⟨_, h, rest, _, _, _, e⟩ | ⟨_, _, ⟨i, _, e⟩ | ⟨_, _, e⟩⟩
  · simp [hr] at hr'
  · rw [e]
    intro t ht
    obtain ⟨hkey, hiv⟩ := exec_keepsKeyIvSet _ _ t ht
    exact ⟨hkey, hiv⟩
  · rw [e]
    exact exec_keepsKeyIvSet i s
  · rw [e]
    rintro _ ⟨⟩

/-- Settles O10: the fields of the reset state, and what every step without a reset keeps. -/
theorem resetClearsEverythingAndAloneUnsetsKeyAndIv :
    Obligations.ResetClearsEverythingAndAloneUnsetsKeyAndIv := by
  refine ⟨fun s hr => ⟨s.toReset, step_of_reset hr, ?_⟩, fun s t hr h => ?_⟩
  · exact ⟨rfl, rfl, rfl, rfl, rfl, rfl, Memory.lookup_nil, Memory.lookup_nil, rfl, rfl, rfl, rfl, rfl, rfl, rfl, rfl,
      rfl, rfl, rfl, rfl, rfl, rfl, rfl, State.statusWord_of_clear rfl rfl, rfl, rfl⟩
  · obtain ⟨hkey, hiv⟩ := step_keepsKeyIvSet hr t h
    exact ⟨hkey, hiv⟩

end Sys2Proof.Machine
end

section
/-! The invariant through each micro-step (R36, extended to the phases of a run): the buffers stay filled from index 0 to
their extents, the cells in range, and the counts in step with the blocks. -/

namespace Sys2Proof.Machine

/-! ### Buffers filled from index 0 -/

/-- The bytes below `n` hold a value, and no other. -/
def Memory.FilledTo (m : Memory) (n : Nat) : Prop := ∀ a, (m.lookup a).isSome = true ↔ a < n

theorem Memory.filledTo_nil : Memory.FilledTo [] 0 := by
  intro a
  simp

theorem Memory.filledTo_writeBytes_nil (bs : List Byte) : (Memory.writeBytes [] 0 bs).FilledTo bs.length := by
  intro a
  rw [Memory.lookup_writeBytes_nil]
  simp

/-- The block written at the end of the filled part (R64). -/
theorem Memory.FilledTo.writeBlock {m : Memory} {n : Nat} (h : m.FilledTo n) (b : Block) :
    (m.writeBytes n b.toList).FilledTo (n + 32) := by
  intro a
  by_cases hin : n ≤ a ∧ a < n + 32
  · obtain ⟨j, rfl⟩ : ∃ j : Fin 32, n + j.val = a := ⟨⟨a - n, by omega⟩, by dsimp only; omega⟩
    rw [Memory.lookup_writeBlock]
    simp
  · rw [Memory.lookup_writeBlock_of_outside _ _ _ (by omega), h a]
    omega

/-- The terminator overwrites a byte that holds a value (R216). -/
theorem Memory.FilledTo.writeTerminator {m : Memory} {n : Nat} (h : m.FilledTo n) {total : Len}
    (htotal : total.toNat ≤ n) (p : Byte) : (writeTerminator m total p).FilledTo n := by
  intro a
  rw [writeTerminator_lookup]
  split
  · simp only [Option.isSome_some, true_iff]
    omega
  · exact h a

/-! ### Cells -/

/-- Every cell is a sign-extended byte (R27). -/
def CellsInRange (m : Matrix) : Prop :=
  ∀ (r : Fin 4) (c : Fin 8), m[r][c] = ((m[r][c]).setWidth 8).signExtend 32

theorem zeroMatrix_inRange : CellsInRange zeroMatrix := by
  intro r c
  rw [zeroMatrix_get]
  decide

theorem loadMatrix_inRange (b : Block) : CellsInRange (loadMatrix b) := by
  intro r c
  rw [loadMatrix_get, setWidth_signExtend]

theorem CellsInRange.permute {m : Matrix} (h : CellsInRange m) : CellsInRange (permute m) := by
  intro r c
  rw [permute_get]
  exact h (r + 2) (7 - c)

/-! ### Counts -/

theorem State.LoopInv.nmemb_toNat {s : State} (h : s.LoopInv) : s.nmemb.bits.toNat = s.inputLen.toNat / 32 := by
  rw [h.nmemb, Reg.value_bits, blockCount_toNat]

theorem State.LoopInv.total_toNat {s : State} (h : s.LoopInv) :
    s.total.bits.toNat = 32 * (s.inputLen.toNat / 32) := by
  rw [h.total, Reg.value_bits, totalBytes_toNat]

/-- Block BLKCNT lies inside the input text (R183). -/
theorem State.BodyInv.block_le {s : State} {op : BitVec 4} (h : s.BodyInv op) :
    32 * s.blkcnt.bits.toNat + 32 ≤ s.inputLen.toNat := by
  have hn := h.loop.nmemb_toNat
  have hin := h.inside
  omega

theorem State.BodyInv.block_le_maxLen {s : State} {op : BitVec 4} (h : s.BodyInv op) :
    32 * s.blkcnt.bits.toNat + 32 ≤ s.maxLen :=
  h.block_le.trans h.loop.checked.inputFits

/-- A DECRYPT past R_CHECK has at least one block (R36 item 3). -/
theorem State.LoopInv.block_of_decrypt {s : State} (h : s.LoopInv) (hop : s.op.bits = 0x9#4)
    (hct : s.ctLen = 0#32 ∨ (32 ≤ s.ctLen.toNat ∧ s.ctLen.toNat ≤ s.maxLen)) : 32 ≤ s.inputLen.toNat := by
  rw [← State.inputLen_of_decrypt hop] at hct
  exact (hct.resolve_left h.checked.inputSet).1

theorem State.LoopInv.inputLen_le_ptExt {s : State} (h : s.LoopInv) (hop : s.opIs 0x8#4) :
    s.inputLen.toNat ≤ s.ptExt.toNat := by
  have he : s.op.bits = 0x8#4 := congrArg Reg.bits hop
  have hread := h.checked.inputReadable
  rwa [if_pos he] at hread

theorem State.LoopInv.inputLen_le_ctExt {s : State} (h : s.LoopInv) (hop : s.opIs 0x9#4) :
    s.inputLen.toNat ≤ s.ctExt.toNat := by
  have hread := h.checked.inputReadable
  rwa [if_neg (by rw [hop]; decide)] at hread

/-! ### Micro-steps of the data path -/

/-- `t` is `s` but for KEYROUND, MATRIX, the staging registers and PHASE. -/
def State.DatapathFrame (s t : State) : Prop :=
  t = { s with
    keyround := t.keyround, matrix := t.matrix, blk := t.blk, fed := t.fed, out := t.out, phase := t.phase }

section Datapath

variable {s t : State} {op : BitVec 4} (hframe : s.DatapathFrame t)
include hframe

theorem State.DatapathFrame.context (h : s.ContextInv) (hcells : t.matrix.held = true → CellsInRange t.matrix.bits) :
    t.ContextInv := by
  rw [hframe]
  exact { h with cells := hcells }

variable (hk : t.keyround.held = true) (hm : t.matrix.held = true)
include hk hm

theorem State.DatapathFrame.loopInv (h : s.LoopInv) : t.LoopInv := by
  rw [hframe]
  exact { h with checked := { h.checked with }, keyroundHeld := hk, matrixHeld := hm }

theorem State.DatapathFrame.bodyInv (h : s.BodyInv op) : t.BodyInv op := by
  have hloop := hframe.loopInv hk hm h.loop
  rw [hframe] at hloop ⊢
  exact { h with loop := hloop }

theorem State.DatapathFrame.copiedInv (h : s.CopiedInv op) : t.CopiedInv op := by
  have hloop := hframe.loopInv hk hm h.loop
  rw [hframe] at hloop ⊢
  exact { h with loop := hloop }

end Datapath

theorem State.ContextInv.cellsInRange {s : State} (h : s.ContextInv) {op : BitVec 4} (hbody : s.BodyInv op) :
    CellsInRange s.matrix.bits :=
  h.cells hbody.loop.matrixHeld

/-- The current block begins at `32 × BLKCNT` (R63). -/
theorem State.BodyInv.blockIndex_toNat {s : State} {op : BitVec 4} (h : s.BodyInv op) (hcontext : s.ContextInv) :
    s.blockIndex.toNat = 32 * s.blkcnt.bits.toNat :=
  State.blockIndex_toNat_of_inside rfl h.block_le_maxLen hcontext.maxLen.2

/-- The extent that a copy-out of the current block sets (R194, R201). -/
theorem State.BodyInv.nextExt_toNat {s : State} {op : BitVec 4} (h : s.BodyInv op) (hcontext : s.ContextInv) :
    (s.blockIndex + 32#32).toNat = 32 * s.blkcnt.bits.toNat + 32 := by
  have hfits := h.block_le_maxLen
  have hmax := hcontext.maxLen.2
  have hindex := h.blockIndex_toNat hcontext
  bv_omega

/-- A micro-step of the body keeps the invariant, if what it writes holds values and its next phase asks for no more. -/
theorem State.BodyInv.inv_of_datapath {s t : State} {op : BitVec 4} (h : s.BodyInv op) (hcontext : s.ContextInv)
    (hframe : s.DatapathFrame t) (hk : t.keyround.held = true) (hm : t.matrix.held = true)
    (hcells : CellsInRange t.matrix.bits) (hphase : t.BodyInv op → t.PhaseInv) : t.Inv :=
  ⟨hframe.context hcontext fun _ => hcells, hphase (hframe.bodyInv hk hm h)⟩

/-- A micro-step of the body that writes staging registers alone. -/
theorem State.BodyInv.inv_of_staging {s t : State} {op : BitVec 4} (h : s.BodyInv op) (hcontext : s.ContextInv)
    (hframe : t = { s with blk := t.blk, fed := t.fed, out := t.out, phase := t.phase })
    (hphase : t.BodyInv op → t.PhaseInv) : t.Inv := by
  have hk : t.keyround = s.keyround := by rw [hframe]
  have hm : t.matrix = s.matrix := by rw [hframe]
  refine h.inv_of_datapath hcontext ?_ ?_ ?_ ?_ hphase
  · rw [State.DatapathFrame, hk, hm]
    exact hframe
  · rw [hk]
    exact h.loop.keyroundHeld
  · rw [hm]
    exact h.loop.matrixHeld
  · rw [hm]
    exact hcontext.cellsInRange h

section Body

variable {s t : State} (h : s.Inv)
include h

theorem State.Inv.of_eCopyin (hp : s.phase = 5#5) (ht : exec .eCopyin s = .next t) : t.Inv := by
  have hbody : s.BodyInv 0x8#4 := by simpa [State.PhaseInv, hp] using h.phase
  cases (execECopyin_next hbody.blockInBuffer).symm.trans ht
  exact hbody.inv_of_staging h.context rfl fun hb => ⟨hb, rfl⟩

theorem State.Inv.of_eXor (hp : s.phase = 6#5) (ht : exec .eXor s = .next t) : t.Inv := by
  obtain ⟨hbody, _⟩ : s.BodyInv 0x8#4 ∧ s.blk.held = true := by simpa [State.PhaseInv, hp] using h.phase
  cases ht
  exact hbody.inv_of_staging h.context rfl fun hb => ⟨hb, rfl⟩

theorem State.Inv.of_eChain (hp : s.phase = 7#5) (ht : exec .eChain s = .next t) : t.Inv := by
  obtain ⟨hbody, hfed⟩ : s.BodyInv 0x8#4 ∧ s.fed.held = true := by simpa [State.PhaseInv, hp] using h.phase
  cases ht
  exact hbody.inv_of_datapath h.context rfl rfl hbody.loop.matrixHeld (h.context.cellsInRange hbody)
    fun hb => ⟨hb, hfed⟩

theorem State.Inv.of_eLoad (hp : s.phase = 8#5) (ht : exec .eLoad s = .next t) : t.Inv := by
  obtain ⟨hbody, _⟩ : s.BodyInv 0x8#4 ∧ s.fed.held = true := by simpa [State.PhaseInv, hp] using h.phase
  cases ht
  exact hbody.inv_of_datapath h.context rfl hbody.loop.keyroundHeld rfl (loadMatrix_inRange _) id

theorem State.Inv.of_ePerm (hp : s.phase = 9#5) (ht : exec .ePerm s = .next t) : t.Inv := by
  have hbody : s.BodyInv 0x8#4 := by simpa [State.PhaseInv, hp] using h.phase
  cases ht
  exact hbody.inv_of_datapath h.context rfl hbody.loop.keyroundHeld rfl (h.context.cellsInRange hbody).permute id

theorem State.Inv.of_eExport (hp : s.phase = 10#5) (ht : exec .eExport s = .next t) : t.Inv := by
  have hbody : s.BodyInv 0x8#4 := by simpa [State.PhaseInv, hp] using h.phase
  cases ht
  exact hbody.inv_of_staging h.context rfl fun hb => ⟨hb, rfl⟩

theorem State.Inv.of_dCopyin (hp : s.phase = 12#5) (ht : exec .dCopyin s = .next t) : t.Inv := by
  have hbody : s.BodyInv 0x9#4 := by simpa [State.PhaseInv, hp] using h.phase
  cases (execDCopyin_next hbody.blockInBuffer).symm.trans ht
  exact hbody.inv_of_staging h.context rfl fun hb => ⟨hb, rfl⟩

theorem State.Inv.of_dLoad (hp : s.phase = 13#5) (ht : exec .dLoad s = .next t) : t.Inv := by
  obtain ⟨hbody, _⟩ : s.BodyInv 0x9#4 ∧ s.blk.held = true := by simpa [State.PhaseInv, hp] using h.phase
  cases ht
  exact hbody.inv_of_datapath h.context rfl hbody.loop.keyroundHeld rfl (loadMatrix_inRange _) id

theorem State.Inv.of_dInvperm (hp : s.phase = 14#5) (ht : exec .dInvperm s = .next t) : t.Inv := by
  have hbody : s.BodyInv 0x9#4 := by simpa [State.PhaseInv, hp] using h.phase
  cases ht
  exact hbody.inv_of_datapath h.context rfl hbody.loop.keyroundHeld rfl (h.context.cellsInRange hbody).permute id

theorem State.Inv.of_dExport (hp : s.phase = 15#5) (ht : exec .dExport s = .next t) : t.Inv := by
  have hbody : s.BodyInv 0x9#4 := by simpa [State.PhaseInv, hp] using h.phase
  cases ht
  exact hbody.inv_of_staging h.context rfl fun hb => ⟨hb, rfl⟩

theorem State.Inv.of_dXor (hp : s.phase = 16#5) (ht : exec .dXor s = .next t) : t.Inv := by
  obtain ⟨hbody, hfed⟩ : s.BodyInv 0x9#4 ∧ s.fed.held = true := by simpa [State.PhaseInv, hp] using h.phase
  cases ht
  exact hbody.inv_of_staging h.context rfl fun hb => ⟨hb, hfed, rfl⟩

theorem State.Inv.of_dChain (hp : s.phase = 18#5) (ht : exec .dChain s = .next t) : t.Inv := by
  obtain ⟨hcopied, _⟩ : s.CopiedInv 0x9#4 ∧ s.fed.held = true := by simpa [State.PhaseInv, hp] using h.phase
  cases ht
  exact ⟨State.DatapathFrame.context rfl h.context h.context.cells,
    .inr (State.DatapathFrame.copiedInv rfl rfl hcopied.loop.matrixHeld hcopied)⟩

end Body

/-! ### Copies out -/

/-- CT filled up to a new extent (R64). -/
theorem State.ContextInv.setCt {s : State} (h : s.ContextInv) {m : Memory} {ext : Len} (p : PhaseCode) (hwf : m.wf)
    (hfilled : m.FilledTo ext.toNat) (hext : ext.toNat ≤ s.maxLen) :
    ({ s with ct := m, ctExt := ext, phase := p } : State).ContextInv :=
  { h with ctForm := hwf, ctListed := hfilled, ctExt := hext }

/-- PT filled up to a new extent (R64). -/
theorem State.ContextInv.setPt {s : State} (h : s.ContextInv) {m : Memory} {ext : Len} (p : PhaseCode) (hwf : m.wf)
    (hfilled : m.FilledTo ext.toNat) (hext : ext.toNat ≤ s.maxLen) :
    ({ s with pt := m, ptExt := ext, phase := p } : State).ContextInv :=
  { h with ptForm := hwf, ptListed := hfilled, ptExt := hext }

/-- What R_CHECK established for an ENCRYPT does not speak of CT (R185). -/
theorem State.LoopInv.setCt {s : State} (h : s.LoopInv) (hop : s.op.bits = 0x8#4) (m : Memory) (ext : Len)
    (p : PhaseCode) : ({ s with ct := m, ctExt := ext, phase := p } : State).LoopInv := by
  have hread := h.checked.inputReadable
  rw [if_pos hop] at hread
  exact { h with checked := { h.checked with inputReadable := by dsimp only; rw [if_pos hop]; exact hread } }

/-- What R_CHECK established for a DECRYPT does not speak of PT (R185). -/
theorem State.LoopInv.setPt {s : State} (h : s.LoopInv) (hop : s.op.bits = 0x9#4) (m : Memory) (ext : Len)
    (p : PhaseCode) : ({ s with pt := m, ptExt := ext, phase := p } : State).LoopInv := by
  have hne : s.op.bits ≠ 0x8#4 := by rw [hop]; decide
  have hread := h.checked.inputReadable
  rw [if_neg hne] at hread
  exact { h with checked := { h.checked with inputReadable := by dsimp only; rw [if_neg hne]; exact hread } }

theorem State.outputExt_of_encrypt {s : State} (hop : s.op.bits = 0x8#4) : s.outputExt = s.ctExt.toNat := by
  rw [State.outputExt, if_pos hop]

theorem State.outputExt_of_decrypt {s : State} (hop : s.op.bits = 0x9#4) : s.outputExt = s.ptExt.toNat := by
  rw [State.outputExt, if_neg (by rw [hop]; decide)]

section CopyOut

variable {s t : State} (h : s.Inv)
include h

theorem State.Inv.of_eCopyout (hp : s.phase = 11#5) (ht : exec .eCopyout s = .next t) : t.Inv := by
  obtain ⟨hbody, _⟩ : s.BodyInv 0x8#4 ∧ s.out.held = true := by simpa [State.PhaseInv, hp] using h.phase
  have hop : s.op.bits = 0x8#4 := congrArg Reg.bits hbody.op
  have hext := hbody.nextExt_toNat h.context
  have hfilled : s.ct.FilledTo (32 * s.blkcnt.bits.toNat) := by
    rw [← hbody.ext, State.outputExt_of_encrypt hop]
    exact h.context.ctListed
  cases (execECopyout_next hbody.blockInBuffer).symm.trans ht
  refine ⟨h.context.setCt _ (Memory.wf_writeBytes h.context.ctForm _ _) ?_ (hext.trans_le hbody.block_le_maxLen),
    .inl { hbody with loop := hbody.loop.setCt hop _ _ _, ext := (congrArg BitVec.toNat (if_pos hop)).trans hext }⟩
  rw [hext, hbody.blockIndex_toNat h.context]
  exact hfilled.writeBlock _

theorem State.Inv.of_dCopyout (hp : s.phase = 17#5) (ht : exec .dCopyout s = .next t) : t.Inv := by
  obtain ⟨hbody, hfed, _⟩ : s.BodyInv 0x9#4 ∧ s.fed.held = true ∧ s.out.held = true := by
    simpa [State.PhaseInv, hp] using h.phase
  have hop : s.op.bits = 0x9#4 := congrArg Reg.bits hbody.op
  have hne : s.op.bits ≠ 0x8#4 := by rw [hop]; decide
  have hext := hbody.nextExt_toNat h.context
  have hfilled : s.pt.FilledTo (32 * s.blkcnt.bits.toNat) := by
    rw [← hbody.ext, State.outputExt_of_decrypt hop]
    exact h.context.ptListed
  cases (execDCopyout_next hbody.blockInBuffer).symm.trans ht
  refine ⟨h.context.setPt _ (Memory.wf_writeBytes h.context.ptForm _ _) ?_ (hext.trans_le hbody.block_le_maxLen),
    { hbody with loop := hbody.loop.setPt hop _ _ _, ext := (congrArg BitVec.toNat (if_neg hne)).trans hext }, hfed⟩
  rw [hext, hbody.blockIndex_toNat h.context]
  exact hfilled.writeBlock _

end CopyOut

/-! ### Completions and updates -/

section Updates

variable {s : State} (h : s.Inv) (hpt : s.ptReadable) (hct : s.ctReadable)
include h hpt hct

/-- A failure touches neither text (R230). -/
theorem State.Inv.fail (c : Cause) : (s.fail c).Inv := ⟨{ h.context with }, hpt, hct⟩

theorem State.Inv.updateIv : s.updateIv.Inv := by
  rcases s.updateIv_cases with ⟨_, e⟩ | ⟨b, rest, _, ⟨_, e⟩ | ⟨_, e⟩⟩ <;> rw [e]
  · exact h
  · exact ⟨{ h.context with ivHeld := fun _ => rfl }, hpt, hct⟩
  · exact ⟨{ h.context with ivHeld := fun _ => rfl, ivLen := .inr rfl }, hpt, hct⟩

theorem State.Inv.updateKey : s.updateKey.Inv := by
  rcases s.updateKey_cases with ⟨_, e⟩ | ⟨b, rest, _, ⟨_, e⟩ | ⟨_, e⟩⟩ <;> rw [e]
  · exact h
  · exact ⟨{ h.context with keyHeld := fun _ => rfl }, hpt, hct⟩
  · exact ⟨{ h.context with keyHeld := fun _ => rfl, keyLen := .inr rfl }, hpt, hct⟩

/-- SET_PLAINTEXT sets PT_LEN and PT_EXT alike (R123). -/
theorem State.Inv.updatePlaintext : s.updatePlaintext.Inv := by
  rcases s.updatePlaintext_cases with ⟨_, e⟩ | ⟨_, _, e⟩ | ⟨_, hfits, ⟨_, e⟩ | ⟨bs, rest, hlen, _, e⟩⟩ <;> rw [e]
  · exact h.fail hpt hct _
  · exact h.fail hpt hct _
  · exact h
  · refine ⟨{ h.context with
      ptForm := Memory.wf_writeBytes Memory.wf_nil _ _, ptListed := ?_, ptExt := hfits
      ptWrapped := fun hover => absurd hfits (Nat.not_le.mpr hover) }, fun _ => Nat.le_refl _, hct⟩
    show Memory.FilledTo _ s.lenop.bits.toNat
    rw [← hlen]
    exact Memory.filledTo_writeBytes_nil bs

/-- SET_CIPHERTEXT sets CT_LEN and CT_EXT alike (R124). -/
theorem State.Inv.updateCiphertext : s.updateCiphertext.Inv := by
  rcases s.updateCiphertext_cases with ⟨_, e⟩ | ⟨_, _, e⟩ | ⟨hblock, hfits, ⟨_, e⟩ | ⟨bs, rest, hlen, _, e⟩⟩ <;> rw [e]
  · exact h.fail hpt hct _
  · exact h.fail hpt hct _
  · exact h
  · refine ⟨{ h.context with
      ctForm := Memory.wf_writeBytes Memory.wf_nil _ _, ctListed := ?_, ctExt := hfits
      ctLen := .inr ⟨hblock, hfits⟩ }, hpt, Nat.le_refl _⟩
    show Memory.FilledTo _ s.lenop.bits.toNat
    rw [← hlen]
    exact Memory.filledTo_writeBytes_nil bs

end Updates

/-! ### Micro-steps of the control -/

/-- An ENCRYPT enters the loop with CT emptied and nothing counted (R186). -/
theorem State.ContextInv.inv_allocCt {s : State} (h : s.ContextInv) (hloop : s.LoopInv) (hop : s.opIs 0x8#4)
    (hblkcnt : s.blkcnt.bits = 0#32) (houtlen : s.outlen.bits = 0#32) : (s.allocCt.setPhase 4#5).Inv := by
  have he : s.op.bits = 0x8#4 := congrArg Reg.bits hop
  refine ⟨h.setCt 4#5 Memory.wf_nil Memory.filledTo_nil (Nat.zero_le _), .inl hop, hloop.setCt he [] 0#32 4#5, ?_, ?_⟩
  · show s.outlen.bits.toNat = 32 * s.blkcnt.bits.toNat
    rw [houtlen, hblkcnt]
    rfl
  · refine (congrArg BitVec.toNat (if_pos he)).trans ?_
    show 0 = 32 * s.blkcnt.bits.toNat
    rw [hblkcnt]
    rfl

/-- A DECRYPT enters the loop with PT emptied and nothing counted (R186). -/
theorem State.ContextInv.inv_allocPt {s : State} (h : s.ContextInv) (hloop : s.LoopInv) (hop : s.opIs 0x9#4)
    (hblkcnt : s.blkcnt.bits = 0#32) (houtlen : s.outlen.bits = 0#32) : (s.allocPt.setPhase 4#5).Inv := by
  have hd : s.op.bits = 0x9#4 := congrArg Reg.bits hop
  have hne : s.op.bits ≠ 0x8#4 := by rw [hd]; decide
  refine ⟨h.setPt 4#5 Memory.wf_nil Memory.filledTo_nil (Nat.zero_le _), .inr hop, hloop.setPt hd [] 0#32 4#5, ?_, ?_⟩
  · show s.outlen.bits.toNat = 32 * s.blkcnt.bits.toNat
    rw [houtlen, hblkcnt]
    rfl
  · refine (congrArg BitVec.toNat (if_neg hne)).trans ?_
    show 0 = 32 * s.blkcnt.bits.toNat
    rw [hblkcnt]
    rfl

theorem State.runPrepared_op (l : Len) (s : State) : (s.runPrepared l).op = s.op := by
  rw [State.runPrepared]

theorem State.inputLen_runPrepared (l : Len) (s : State) : (s.runPrepared l).inputLen = s.inputLen := by
  simp only [State.inputLen, State.runPrepared]
  rfl

/-- R_INIT sets the counters from the input length (R183, R186). -/
theorem State.Checked.loopInv_runPrepared {s : State} (h : s.Checked) : (s.runPrepared s.inputLen).LoopInv := by
  obtain ⟨hiv, hkey, hset, hfits, hread⟩ := h
  have hinput := State.inputLen_runPrepared s.inputLen s
  rw [State.runPrepared] at hinput ⊢
  refine ⟨⟨hiv, hkey, ?_, ?_, ?_⟩, rfl, rfl, ?_, ?_, rfl, Nat.zero_le _, rfl⟩ <;> rw [hinput]
  · exact hset
  · exact hfits
  · exact hread
  · rw [blockCount_eq_ofNat]
  · rw [totalBytes_eq_ofNat]

theorem State.ContextInv.runPrepared {s : State} (h : s.ContextInv) (l : Len) : (s.runPrepared l).ContextInv := by
  rw [State.runPrepared]
  exact ⟨h.maxLen, h.keyLen, h.ivLen, h.keyHeld, h.ivHeld, h.ptForm, h.ctForm, h.ptListed, h.ctListed, h.ptExt,
    h.ctExt, h.ptWrapped, h.ctLen, fun _ => zeroMatrix_inRange⟩

/-- R_DONE of an ENCRYPT: CT_LEN becomes `total`, which is CT_EXT, and PT is as R_CHECK found it (R205, R36 items 3
and 4). -/
theorem State.LoopDone.inv_of_encrypt {s : State} (hdone : s.LoopDone 0x8#4) (h : s.ContextInv)
    (hall : s.outlen.bits = s.total.bits) : s.finishRun.Inv := by
  obtain ⟨hop, hloop, hext⟩ := hdone
  have he : s.op.bits = 0x8#4 := congrArg Reg.bits hop
  have htotal := hloop.total_toNat
  have hfits := hloop.checked.inputFits
  have hread := hloop.inputLen_le_ptExt hop
  rw [State.outputExt_of_encrypt he] at hext
  rw [State.inputLen_of_encrypt he] at hread
  rw [State.finishRun_of_encrypt he, hall]
  refine ⟨{ h with ctLen := ?_ }, fun _ => hread, hext.ge⟩
  show s.total.bits = 0#32 ∨ (32 ≤ s.total.bits.toNat ∧ s.total.bits.toNat ≤ s.maxLen)
  by_cases hzero : s.total.bits = 0#32
  · exact .inl hzero
  · have hpos : s.total.bits.toNat ≠ 0 := fun h0 => hzero (BitVec.eq_of_toNat_eq h0)
    exact .inr ⟨by omega, by omega⟩

/-- R_DONE of a DECRYPT: PT_LEN becomes `total` less the padding count, which is at most `total` or wraps to at least
`2^32 − 223` (R205, R218, R36 item 4). -/
theorem State.LoopDone.inv_of_decrypt {s : State} (hdone : s.LoopDone 0x9#4) (h : s.ContextInv)
    (hall : s.outlen.bits = s.total.bits - s.padcnt.bits.setWidth 32) : s.finishRun.Inv := by
  obtain ⟨hop, hloop, hext⟩ := hdone
  have hd : s.op.bits = 0x9#4 := congrArg Reg.bits hop
  have hmax := h.maxLen
  have htotal := hloop.total_toNat
  have hblock := hloop.block_of_decrypt hd h.ctLen
  have hfits := hloop.checked.inputFits
  have hread := hloop.inputLen_le_ctExt hop
  have hpad := s.padcnt.bits.isLt
  have hlen : s.outlen.bits.toNat = (s.total.bits.toNat + 2 ^ 32 - s.padcnt.bits.toNat) % 2 ^ 32 := by
    rw [hall]
    bv_omega
  rw [State.outputExt_of_decrypt hd] at hext
  rw [State.inputLen_of_decrypt hd] at hread
  rw [State.finishRun_of_decrypt hd]
  refine ⟨{ h with ptWrapped := fun hover : s.maxLen < s.outlen.bits.toNat => ?_ },
    fun hle : s.outlen.bits.toNat ≤ s.maxLen => ?_, hread⟩
  · show 2 ^ 32 - 223 ≤ s.outlen.bits.toNat
    omega
  · show s.outlen.bits.toNat ≤ s.ptExt.toNat
    omega

section Control

variable {s t : State} (h : s.Inv)
include h

theorem State.Inv.of_idle (hp : s.phase = 0#5) (ht : exec .idle s = .next t) : t.Inv := by
  obtain ⟨hpt, hct⟩ : s.ptReadable ∧ s.ctReadable := by simpa [State.PhaseInv, hp] using h.phase
  cases hc : s.cmdPort with
  | nil =>
    cases (execIdle_of_nil hc).symm.trans ht
    exact h
  | cons hd rest =>
    cases (execIdle_of_cons hc).symm.trans ht
    rw [← opField_classBit]
    by_cases hclass : (opField hd).getLsbD 3 = true
    · rw [if_pos hclass]
      exact ⟨{ h.context with }, hpt, hct, rfl, hclass⟩
    · rw [if_neg hclass]
      exact ⟨{ h.context with }, hpt, hct, rfl, rfl, Bool.eq_false_iff.mpr hclass⟩

theorem State.Inv.of_upd (hp : s.phase = 1#5) (ht : exec .upd s = .next t) : t.Inv := by
  obtain ⟨hpt, hct, _⟩ : s.ptReadable ∧ s.ctReadable ∧ s.op.held = true ∧ s.lenop.held = true ∧
    s.op.bits.getLsbD 3 = false := by simpa [State.PhaseInv, hp] using h.phase
  rcases execUpd_cases s with e | e | e | e | e <;> cases e.symm.trans ht
  · exact h.updateIv hpt hct
  · exact h.updateKey hpt hct
  · exact h.updatePlaintext hpt hct
  · exact h.updateCiphertext hpt hct
  · exact h.fail hpt hct _

/-- What R_CHECK lets pass is `Checked` (R185). -/
theorem State.Inv.checked (hop : s.op.bits = 0x8#4 ∨ s.op.bits = 0x9#4) (hpt : s.ptReadable) (hct : s.ctReadable)
    (hset : ¬(s.ivLen = 0#32 ∨ s.keyLen = 0#32 ∨ s.inputLen = 0#32)) (hfits : s.inputLen.toNat ≤ s.maxLen) :
    s.Checked := by
  obtain ⟨hiv, hkey, hinput⟩ : s.ivLen ≠ 0#32 ∧ s.keyLen ≠ 0#32 ∧ s.inputLen ≠ 0#32 := by tauto
  refine ⟨h.context.ivLen.resolve_left hiv, h.context.keyLen.resolve_left hkey, hinput, hfits, ?_⟩
  rcases hop with hop | hop
  · rw [State.inputLen_of_encrypt hop] at hfits ⊢
    rw [if_pos hop]
    exact hpt hfits
  · rw [State.inputLen_of_decrypt hop, if_neg (by rw [hop]; decide)]
    exact hct

theorem State.Inv.of_rCheck (hp : s.phase = 2#5) (ht : exec .rCheck s = .next t) : t.Inv := by
  obtain ⟨hpt, hct, hheld, hclass⟩ : s.ptReadable ∧ s.ctReadable ∧ s.op.held = true ∧ s.op.bits.getLsbD 3 = true := by
    simpa [State.PhaseInv, hp] using h.phase
  by_cases hsel : 2 ≤ (s.op.bits.extractLsb' 0 3).toNat
  · cases (execRCheck_of_reserved hsel).symm.trans ht
    exact h.fail hpt hct _
  · have hop := run_code_of_selector hclass hsel
    cases (execRCheck_of_run hop).symm.trans ht
    split_ifs with hset hfits
    · exact h.fail hpt hct _
    · exact h.fail hpt hct _
    · have hchecked := h.checked hop hpt hct hset (Nat.not_lt.mp hfits)
      refine ⟨{ h.context with }, hpt, hct, ?_, { hchecked with }⟩
      have hvalue := Reg.eq_value hheld
      exact hop.imp (fun e => hvalue.trans (congrArg _ e)) fun e => hvalue.trans (congrArg _ e)

theorem State.Inv.of_rInit (hp : s.phase = 3#5) (ht : exec .rInit s = .next t) : t.Inv := by
  obtain ⟨_, _, hop, hchecked⟩ : s.ptReadable ∧ s.ctReadable ∧ (s.opIs 0x8#4 ∨ s.opIs 0x9#4) ∧ s.Checked := by
    simpa [State.PhaseInv, hp] using h.phase
  have hloop := hchecked.loopInv_runPrepared
  have hprepared := h.context.runPrepared s.inputLen
  have hkept := State.runPrepared_op s.inputLen s
  obtain rfl : s.initRun.setPhase 4#5 = t := Host.Outcome.next.inj ht
  rcases hop with hop | hop
  · rw [State.initRun_of_encrypt (congrArg Reg.bits hop), ← State.inputLen_of_encrypt (congrArg Reg.bits hop)]
    exact hprepared.inv_allocCt hloop (hkept.trans hop) rfl rfl
  · rw [State.initRun_of_decrypt (congrArg Reg.bits hop), ← State.inputLen_of_decrypt (congrArg Reg.bits hop)]
    exact hprepared.inv_allocPt hloop (hkept.trans hop) rfl rfl

theorem State.Inv.of_rTest (hp : s.phase = 4#5) (ht : exec .rTest s = .next t) : t.Inv := by
  obtain ⟨hop, hloop, houtlen, hext⟩ : (s.opIs 0x8#4 ∨ s.opIs 0x9#4) ∧ s.LoopInv ∧
    s.outlen.bits.toNat = 32 * s.blkcnt.bits.toNat ∧ s.outputExt = 32 * s.blkcnt.bits.toNat := by
    simpa [State.PhaseInv, hp] using h.phase
  cases ht
  refine ⟨{ h.context with }, ?_⟩
  have hloop' (p : PhaseCode) : (s.setPhase p).LoopInv :=
    State.DatapathFrame.loopInv rfl hloop.keyroundHeld hloop.matrixHeld hloop
  by_cases hin : s.blkcnt.bits.toNat < s.nmemb.bits.toNat
  · rw [if_pos hin]
    rcases hop with hop | hop
    · have he : s.op.bits = 0x8#4 := congrArg Reg.bits hop
      rw [if_pos he]
      exact ⟨hop, hloop' 5#5, hin, houtlen, hext⟩
    · rw [if_neg (by rw [hop]; decide)]
      exact ⟨hop, hloop' 12#5, hin, houtlen, hext⟩
  · have htotal : 32 * s.blkcnt.bits.toNat = s.total.bits.toNat := by
      have hcount := hloop.blkcnt
      rw [hloop.total_toNat, ← hloop.nmemb_toNat]
      omega
    have hall : s.outlen.bits = s.total.bits := BitVec.eq_of_toNat_eq (houtlen.trans htotal)
    rw [if_neg hin]
    rcases hop with hop | hop
    · have he : s.op.bits = 0x8#4 := congrArg Reg.bits hop
      rw [if_pos he]
      exact .inl ⟨⟨hop, hloop' 21#5, hext.trans htotal⟩, hall⟩
    · rw [if_neg (by rw [hop]; decide)]
      exact ⟨⟨hop, hloop' 20#5, hext.trans htotal⟩, hall⟩

theorem State.Inv.of_rNext (hp : s.phase = 19#5) (ht : exec .rNext s = .next t) : t.Inv := by
  have hcopied : s.CopiedInv 0x8#4 ∨ s.CopiedInv 0x9#4 := by simpa [State.PhaseInv, hp] using h.phase
  obtain ⟨hop, op, hloopCopied⟩ : (s.opIs 0x8#4 ∨ s.opIs 0x9#4) ∧ ∃ op, s.CopiedInv op :=
    ⟨hcopied.imp (·.op) (·.op), hcopied.elim (⟨_, ·⟩) (⟨_, ·⟩)⟩
  obtain ⟨_, hloop, hin, houtlen, hext⟩ := hloopCopied
  have hn := hloop.nmemb_toNat
  have hword := s.inputLen.isLt
  have hcount : (s.blkcnt.bits + 1#32).toNat = s.blkcnt.bits.toNat + 1 := by bv_omega
  have hlen : (s.outlen.bits + 32#32).toNat = s.outlen.bits.toNat + 32 := by bv_omega
  cases ht
  refine ⟨{ h.context with }, hop, { hloop with
    checked := { hloop.checked with }, blkcntHeld := rfl, outlenHeld := rfl, blkcnt := ?_ }, ?_, ?_⟩
  · exact hcount.trans_le hin
  · show (s.outlen.bits + 32#32).toNat = 32 * (s.blkcnt.bits + 1#32).toNat
    omega
  · show s.outputExt = 32 * (s.blkcnt.bits + 1#32).toNat
    omega

theorem State.Inv.of_dStrip (hp : s.phase = 20#5) (ht : exec .dStrip s = .next t) : t.Inv := by
  obtain ⟨hdone, hall⟩ : s.LoopDone 0x9#4 ∧ s.outlen.bits = s.total.bits := by
    simpa [State.PhaseInv, hp] using h.phase
  have hop : s.op.bits = 0x9#4 := congrArg Reg.bits hdone.op
  have hext := hdone.ext
  rw [State.outputExt_of_decrypt hop] at hext
  have hfilled : s.pt.FilledTo s.ptExt.toNat := h.context.ptListed
  rcases s.strip_cases with ⟨_, e⟩ | ⟨_, e⟩
  · cases (execDStrip_setPhase_of_next s.phase e).symm.trans ht
    have hloop := hdone.loop.setPt hop (writeTerminator s.pt s.total.bits
      (s.pt.byteAt .pt (s.total.bits - 1#32).toNat)) s.ptExt 21#5
    refine ⟨{ h.context with
      ptForm := writeTerminator_wf h.context.ptForm _ _, ptListed := hfilled.writeTerminator hext.ge _ },
      .inr ⟨⟨hdone.op, { hloop with checked := { hloop.checked with }, outlenHeld := rfl }, hdone.ext⟩, rfl, ?_⟩⟩
    exact congrArg (· - _) hall
  · cases (execDStrip_setPhase_of_fault s.phase e).symm.trans ht

theorem State.Inv.of_rDone (hp : s.phase = 21#5) (ht : exec .rDone s = .next t) : t.Inv := by
  have hdone : (s.LoopDone 0x8#4 ∧ s.outlen.bits = s.total.bits) ∨
      (s.LoopDone 0x9#4 ∧ s.padcnt.held = true ∧ s.outlen.bits = s.total.bits - s.padcnt.bits.setWidth 32) := by
    simpa [State.PhaseInv, hp] using h.phase
  obtain rfl : s.finishRun = t := Host.Outcome.next.inj ht
  rcases hdone with ⟨hdone, hall⟩ | ⟨hdone, _, hall⟩
  · exact hdone.inv_of_encrypt h.context hall
  · exact hdone.inv_of_decrypt h.context hall

end Control

end Sys2Proof.Machine
end

section
/-! What each micro-step reads holds a value under the invariant, and decides what it writes (R37). -/

namespace Sys2Proof.Machine

/-! ### The locations that are read -/

/-- The bytes of the current block of a filled input buffer hold values (R63). -/
theorem State.BodyInv.lookup_isSome {s : State} {op : BitVec 4} (h : s.BodyInv op) (hcontext : s.ContextInv)
    {m : Memory} {ext : Len} (hfilled : m.FilledTo ext.toNat) (hread : s.inputLen.toNat ≤ ext.toNat) (k : Nat)
    (hk : k < 32) : (m.lookup (s.blockIndex.toNat + k)).isSome = true := by
  have hblock := h.block_le
  rw [h.blockIndex_toNat hcontext, hfilled]
  omega

/-- The last byte that the strip reads holds a value (R214). -/
theorem State.LoopDone.last_isSome {s : State} (h : s.LoopDone 0x9#4) (hcontext : s.ContextInv) :
    (s.pt.lookup (s.total.bits - 1#32).toNat).isSome = true := by
  have hd : s.op.bits = 0x9#4 := congrArg Reg.bits h.op
  have hblock := h.loop.block_of_decrypt hd hcontext.ctLen
  have htotal := h.loop.total_toNat
  have hext := h.ext
  rw [State.outputExt_of_decrypt hd] at hext
  rw [hcontext.ptListed]
  bv_omega

theorem State.opIs_held {s : State} {op : BitVec 4} (h : s.opIs op) : s.op.held = true := by
  rw [h, Reg.value_held]

/-- Every location that the micro-step of PHASE reads holds a value (R37). -/
theorem State.Inv.readsHeld {s : State} (h : s.Inv) : s.readsHeld := by
  obtain ⟨hcontext, hphase⟩ := h
  rw [State.PhaseInv] at hphase
  rw [State.readsHeld]
  split
  case h_22 => trivial
  all_goals
    rename_i hp
    simp only [hp] at hphase
  · obtain ⟨_, _, hop, hlenop, _⟩ := hphase
    exact ⟨hop, hlenop⟩
  · obtain ⟨_, _, hop, _⟩ := hphase
    exact hop
  · obtain ⟨_, _, hop, hchecked⟩ := hphase
    exact ⟨hop.elim State.opIs_held State.opIs_held, hcontext.keyHeld hchecked.keySet, hcontext.ivHeld hchecked.ivSet⟩
  · obtain ⟨hop, hloop, _⟩ := hphase
    exact ⟨hop.elim State.opIs_held State.opIs_held, hloop.blkcntHeld, by rw [hloop.nmemb, Reg.value_held]⟩
  · exact ⟨hphase.loop.blkcntHeld,
      hphase.lookup_isSome hcontext hcontext.ptListed (hphase.loop.inputLen_le_ptExt hphase.op)⟩
  · exact ⟨hphase.2, hphase.1.loop.keyroundHeld⟩
  · exact hphase.2
  · exact hphase.2
  · exact hphase.loop.matrixHeld
  · exact hphase.loop.matrixHeld
  · exact ⟨hphase.2, hphase.1.loop.blkcntHeld⟩
  · exact ⟨hphase.loop.blkcntHeld,
      hphase.lookup_isSome hcontext hcontext.ctListed (hphase.loop.inputLen_le_ctExt hphase.op)⟩
  · exact hphase.2
  · exact hphase.loop.matrixHeld
  · exact hphase.loop.matrixHeld
  · exact ⟨hphase.2, hphase.1.loop.keyroundHeld⟩
  · obtain ⟨hbody, _, hout⟩ := hphase
    exact ⟨hout, hbody.loop.blkcntHeld⟩
  · exact ⟨hphase.2, hphase.1.loop.keyroundHeld⟩
  · rcases hphase with hcopied | hcopied <;> exact ⟨hcopied.loop.outlenHeld, hcopied.loop.blkcntHeld⟩
  · obtain ⟨hdone, _⟩ := hphase
    exact ⟨by rw [hdone.loop.total, Reg.value_held], hdone.loop.outlenHeld, hdone.last_isSome hcontext⟩
  · rcases hphase with ⟨hdone, _⟩ | ⟨hdone, hpad, _⟩
    · exact ⟨State.opIs_held hdone.op, hdone.loop.outlenHeld, fun hd => absurd hd (by rw [hdone.op]; decide)⟩
    · exact ⟨State.opIs_held hdone.op, hdone.loop.outlenHeld, fun _ => ⟨hpad, by rw [hdone.loop.total, Reg.value_held]⟩⟩

/-! ### Values that agree -/

theorem Reg.SameValue.eq {α : Type} {r r' : Reg α} (h : r.SameValue r') (hr : r.held = true) : r' = r := by
  rw [Reg.eq_value hr, Reg.eq_value (h.held.trans hr), h.bits hr]

theorem Reg.SameValue.value {α : Type} {v v' : α} (h : v' = v) : (Reg.value v).SameValue (Reg.value v') := by
  rw [h]
  exact Reg.SameValue.refl _

section SameValues

variable {s s' : State} (h : s.SameValues s')
include h

theorem State.SameValues.setPhase (p : PhaseCode) : (s.setPhase p).SameValues (s'.setPhase p) :=
  { h with rest := by rw [h.rest]; rfl }

theorem State.SameValues.complete (ok : Bool) (c : Cause) (u : Bool) (v : Len) :
    (s.complete ok c u v).SameValues (s'.complete ok c u v) :=
  { h with rest := by rw [h.rest]; rfl }

theorem State.SameValues.fail (hop : s.op.held = true) (c : Cause) : (s.fail c).SameValues (s'.fail c) := by
  rw [State.fail, State.fail, h.op.eq hop]
  exact h.complete _ _ _ _

theorem State.SameValues.inputLen_eq (hop : s.op.held = true) : s'.inputLen = s.inputLen := by
  rw [State.inputLen, State.inputLen, h.op.eq hop, h.ptLen_eq, h.ctLen_eq]

theorem State.SameValues.blockIndex_eq (hcount : s.blkcnt.held = true) : s'.blockIndex = s.blockIndex := by
  rw [State.blockIndex, State.blockIndex, h.blkcnt.eq hcount]

theorem State.SameValues.latch (op : BitVec 4) (len : Len) (p : PhaseCode) :
    (s.latch op len p).SameValues (s'.latch op len p) :=
  { h with rest := by rw [h.rest]; rfl, op := .refl _, lenop := .refl _ }

theorem State.SameValues.setCmdPort (rest : List Header) :
    ({ s with cmdPort := rest } : State).SameValues { s' with cmdPort := rest } :=
  { h with rest := by rw [h.rest] }

/-! ### Updates -/

theorem State.SameValues.stored_eq (b : Block) : s'.stored b = s.stored b := by
  rw [State.stored, State.stored, h.storageFault_eq]

theorem State.SameValues.updateIv (hop : s.op.held = true) : s.updateIv.SameValues s'.updateIv := by
  have hport := h.payPort_eq
  rcases s.updateIv_cases with ⟨hwait, e⟩ | ⟨b, rest, hpay, ⟨hbad, e⟩ | ⟨hgood, e⟩⟩ <;> rw [e]
  · rw [State.updateIv_of_short (by rwa [hport])]
    exact h
  · rw [← h.stored_eq] at hbad ⊢
    rw [State.updateIv_of_corrupted (hport.trans hpay) hbad]
    refine State.SameValues.fail ?_ ?_ _
    · exact { h with rest := by rw [h.rest], iv := .refl _ }
    · exact hop
  · rw [State.updateIv_of_payload (hport.trans hpay) ((h.stored_eq b).trans hgood)]
    refine State.SameValues.complete ?_ _ _ _ _
    exact { h with rest := by rw [h.rest], iv := .refl _ }

theorem State.SameValues.updateKey (hop : s.op.held = true) : s.updateKey.SameValues s'.updateKey := by
  have hport := h.payPort_eq
  rcases s.updateKey_cases with ⟨hwait, e⟩ | ⟨b, rest, hpay, ⟨hbad, e⟩ | ⟨hgood, e⟩⟩ <;> rw [e]
  · rw [State.updateKey_of_short (by rwa [hport])]
    exact h
  · rw [← h.stored_eq] at hbad ⊢
    rw [State.updateKey_of_corrupted (hport.trans hpay) hbad]
    refine State.SameValues.fail ?_ ?_ _
    · exact { h with rest := by rw [h.rest], key := .refl _ }
    · exact hop
  · rw [State.updateKey_of_payload (hport.trans hpay) ((h.stored_eq b).trans hgood)]
    refine State.SameValues.complete ?_ _ _ _ _
    exact { h with rest := by rw [h.rest], key := .refl _ }

theorem State.SameValues.lenop_eq (hlen : s.lenop.held = true) : s'.lenop.bits = s.lenop.bits := by
  rw [h.lenop.eq hlen]

theorem State.SameValues.updatePlaintext (hop : s.op.held = true) (hlenop : s.lenop.held = true) :
    s.updatePlaintext.SameValues s'.updatePlaintext := by
  have hport := h.payPort_eq
  have hlen' := h.lenop_eq hlenop
  have hmax := h.maxLen_eq
  rcases s.updatePlaintext_cases with ⟨hshort, e⟩ | ⟨hlong, hover, e⟩ |
    ⟨hlong, hfits, ⟨hwait, e⟩ | ⟨bs, rest, hlen, hpay, e⟩⟩ <;> rw [e]
  · rw [State.updatePlaintext_of_badLength (.inl ⟨by rwa [hlen'], rfl⟩)]
    exact h.fail hop _
  · rw [State.updatePlaintext_of_badLength (.inr ⟨by rwa [hlen'], by rwa [hlen', hmax], rfl⟩)]
    exact h.fail hop _
  · rw [State.updatePlaintext_of_short (by rwa [hlen']) (by rwa [hlen', hmax]) (by rwa [hlen', hport])]
    exact h
  · rw [State.updatePlaintext_of_payload (by rwa [hlen']) (by rwa [hlen', hmax]) (by rwa [hlen']) (hport.trans hpay),
      hlen']
    refine State.SameValues.complete ?_ _ _ _ _
    exact { h with rest := by rw [h.rest] }

theorem State.SameValues.updateCiphertext (hop : s.op.held = true) (hlenop : s.lenop.held = true) :
    s.updateCiphertext.SameValues s'.updateCiphertext := by
  have hport := h.payPort_eq
  have hlen' := h.lenop_eq hlenop
  have hmax := h.maxLen_eq
  rcases s.updateCiphertext_cases with ⟨hshort, e⟩ | ⟨hlong, hover, e⟩ |
    ⟨hlong, hfits, ⟨hwait, e⟩ | ⟨bs, rest, hlen, hpay, e⟩⟩ <;> rw [e]
  · rw [State.updateCiphertext_of_badLength (.inl ⟨by rwa [hlen'], rfl⟩)]
    exact h.fail hop _
  · rw [State.updateCiphertext_of_badLength (.inr ⟨by rwa [hlen'], by rwa [hlen', hmax], rfl⟩)]
    exact h.fail hop _
  · rw [State.updateCiphertext_of_short (by rwa [hlen']) (by rwa [hlen', hmax]) (by rwa [hlen', hport])]
    exact h
  · rw [State.updateCiphertext_of_payload (by rwa [hlen']) (by rwa [hlen', hmax]) (by rwa [hlen']) (hport.trans hpay),
      hlen']
    refine State.SameValues.complete ?_ _ _ _ _
    exact { h with rest := by rw [h.rest] }

end SameValues

/-! ### Micro-steps -/

/-- Where both outcomes are next states, they agree in every value held. -/
def SameOutcome (o o' : Host.Outcome State Fault Refusal) : Prop :=
  ∀ t t', o = .next t → o' = .next t' → t.SameValues t'

theorem State.SameValues.sameOutcome {t t' : State} (h : t.SameValues t') : SameOutcome (.next t) (.next t') := by
  rintro _ _ ⟨⟩ ⟨⟩
  exact h

/-- A micro-step guarded by `blockInBuffer`. -/
theorem State.SameValues.sameOutcome_guarded {t t' : State} (h : t.SameValues t') (b b' : Bool) (r r' : Fault) :
    SameOutcome (if b then .next t else .fault r) (if b' then .next t' else .fault r') := by
  rintro _ _ ht ht'
  cases b
  · cases ht
  · cases b'
    · cases ht'
    · exact h.sameOutcome _ _ ht ht'

/-- R_INIT by the buffer that it empties (R186). -/
theorem State.initRun_eq (s : State) : s.initRun =
    if s.op.bits = 0x8#4 then (s.runPrepared s.inputLen).allocCt else (s.runPrepared s.inputLen).allocPt := by
  rw [State.initRun, State.runPrepared, blockCount_eq_ofNat, totalBytes_eq_ofNat]

section MicroSteps

variable {s s' : State} (h : s.SameValues s')
include h

theorem State.SameValues.idle : SameOutcome (execIdle s) (execIdle s') := by
  cases hc : s.cmdPort with
  | nil =>
    rw [execIdle_of_nil hc, execIdle_of_nil (h.cmdPort_eq.trans hc)]
    exact h.sameOutcome
  | cons hd rest =>
    rw [execIdle_of_cons hc, execIdle_of_cons (h.cmdPort_eq.trans hc)]
    exact ((h.setCmdPort rest).latch _ _ _).sameOutcome

theorem State.SameValues.upd (hop : s.op.held = true) (hlenop : s.lenop.held = true) :
    SameOutcome (execUpd s) (execUpd s') := by
  have hop' := h.op.eq hop
  refine State.SameValues.sameOutcome ?_
  rw [hop']
  split_ifs
  · exact h.updateIv hop
  · exact h.updateKey hop
  · exact h.updatePlaintext hop hlenop
  · exact h.updateCiphertext hop hlenop
  · exact h.fail hop _

theorem State.SameValues.rCheck (hop : s.op.held = true) : SameOutcome (execRCheck s) (execRCheck s') := by
  have hsel : s'.op.bits.extractLsb' 0 3 = s.op.bits.extractLsb' 0 3 := by rw [h.op.eq hop]
  have hunset : s'.unset = s.unset := by
    rw [State.unset, State.unset, h.ivLen_eq, h.keyLen_eq, h.inputLen_eq hop]
  have hover : s'.maxLen < s'.inputLen.toNat ↔ s.maxLen < s.inputLen.toNat := by rw [h.maxLen_eq, h.inputLen_eq hop]
  refine State.SameValues.sameOutcome ?_
  rw [hsel, hunset]
  simp only [hover]
  split_ifs
  · exact h.fail hop _
  · exact h.fail hop _
  · exact h.fail hop _
  · exact h.setPhase 3#5

theorem State.SameValues.runPrepared (hkey : s.key.held = true) (hiv : s.iv.held = true) (l : Len) :
    (s.runPrepared l).SameValues (s'.runPrepared l) := by
  rw [State.runPrepared, State.runPrepared]
  have hk : derive s'.key.bits s'.iv.bits = derive s.key.bits s.iv.bits := by rw [h.key.eq hkey, h.iv.eq hiv]
  exact ⟨by rw [h.rest], h.key, h.iv, .value hk, .refl _, h.blk, h.fed, h.out, .refl _, .refl _, .refl _, .refl _,
    h.padcnt, h.op, h.lenop⟩

theorem State.SameValues.allocCt : s.allocCt.SameValues s'.allocCt := { h with rest := by rw [h.rest]; rfl }

theorem State.SameValues.allocPt : s.allocPt.SameValues s'.allocPt := { h with rest := by rw [h.rest]; rfl }

theorem State.SameValues.rInit (hop : s.op.held = true) (hkey : s.key.held = true) (hiv : s.iv.held = true) :
    SameOutcome (execRInit s) (execRInit s') := by
  have hprepared := h.runPrepared hkey hiv s.inputLen
  refine State.SameValues.sameOutcome ?_
  show (s.initRun.setPhase 4#5).SameValues (s'.initRun.setPhase 4#5)
  refine State.SameValues.setPhase ?_ 4#5
  rw [s.initRun_eq, s'.initRun_eq, h.op.eq hop, h.inputLen_eq hop]
  split_ifs
  · exact hprepared.allocCt
  · exact hprepared.allocPt

theorem State.SameValues.rTest (hop : s.op.held = true) (hblkcnt : s.blkcnt.held = true)
    (hnmemb : s.nmemb.held = true) : SameOutcome (execRTest s) (execRTest s') := by
  refine State.SameValues.sameOutcome ?_
  show (s.setPhase _).SameValues (s'.setPhase _)
  rw [h.op.eq hop, h.blkcnt.eq hblkcnt, h.nmemb.eq hnmemb]
  exact h.setPhase _

theorem State.SameValues.eCopyin (hblkcnt : s.blkcnt.held = true) : SameOutcome (execECopyin s) (execECopyin s') := by
  have hread : s'.pt.readBlock .pt s'.blockIndex.toNat = s.pt.readBlock .pt s.blockIndex.toNat := by
    rw [h.pt_eq, h.blockIndex_eq hblkcnt]
  refine State.SameValues.sameOutcome_guarded ?_ _ _ _ _
  exact { h with rest := by rw [h.rest], blk := .value hread }

theorem State.SameValues.dCopyin (hblkcnt : s.blkcnt.held = true) : SameOutcome (execDCopyin s) (execDCopyin s') := by
  have hread : s'.ct.readBlock .ct s'.blockIndex.toNat = s.ct.readBlock .ct s.blockIndex.toNat := by
    rw [h.ct_eq, h.blockIndex_eq hblkcnt]
  refine State.SameValues.sameOutcome_guarded ?_ _ _ _ _
  exact { h with rest := by rw [h.rest], blk := .value hread }

theorem State.SameValues.eCopyout (hout : s.out.held = true) (hblkcnt : s.blkcnt.held = true) :
    SameOutcome (execECopyout s) (execECopyout s') := by
  have hwritten : s'.ct.writeBytes s'.blockIndex.toNat s'.out.bits.toList =
      s.ct.writeBytes s.blockIndex.toNat s.out.bits.toList := by
    rw [h.ct_eq, h.blockIndex_eq hblkcnt, h.out.eq hout]
  refine State.SameValues.sameOutcome_guarded ?_ _ _ _ _
  rw [hwritten, h.blockIndex_eq hblkcnt]
  exact { h with rest := by rw [h.rest] }

theorem State.SameValues.dCopyout (hout : s.out.held = true) (hblkcnt : s.blkcnt.held = true) :
    SameOutcome (execDCopyout s) (execDCopyout s') := by
  have hwritten : s'.pt.writeBytes s'.blockIndex.toNat s'.out.bits.toList =
      s.pt.writeBytes s.blockIndex.toNat s.out.bits.toList := by
    rw [h.pt_eq, h.blockIndex_eq hblkcnt, h.out.eq hout]
  refine State.SameValues.sameOutcome_guarded ?_ _ _ _ _
  rw [hwritten, h.blockIndex_eq hblkcnt]
  exact { h with rest := by rw [h.rest] }

theorem State.SameValues.eXor (hblk : s.blk.held = true) (hkeyround : s.keyround.held = true) :
    SameOutcome (execEXor s) (execEXor s') := by
  have hfed : xorBlock s'.blk.bits s'.keyround.bits = xorBlock s.blk.bits s.keyround.bits := by
    rw [h.blk.eq hblk, h.keyround.eq hkeyround]
  refine State.SameValues.sameOutcome ?_
  exact { h with rest := by rw [h.rest], fed := .value hfed }

theorem State.SameValues.eChain (hfed : s.fed.held = true) : SameOutcome (execEChain s) (execEChain s') := by
  refine State.SameValues.sameOutcome ?_
  exact { h with rest := by rw [h.rest], keyround := .value (h.fed.bits hfed) }

theorem State.SameValues.eLoad (hfed : s.fed.held = true) : SameOutcome (execELoad s) (execELoad s') := by
  refine State.SameValues.sameOutcome ?_
  exact { h with rest := by rw [h.rest], matrix := .value (congrArg loadMatrix (h.fed.bits hfed)) }

theorem State.SameValues.ePerm (hmatrix : s.matrix.held = true) : SameOutcome (execEPerm s) (execEPerm s') := by
  refine State.SameValues.sameOutcome ?_
  exact { h with rest := by rw [h.rest], matrix := .value (congrArg permute (h.matrix.bits hmatrix)) }

theorem State.SameValues.eExport (hmatrix : s.matrix.held = true) : SameOutcome (execEExport s) (execEExport s') := by
  refine State.SameValues.sameOutcome ?_
  exact { h with rest := by rw [h.rest], out := .value (congrArg exportMatrix (h.matrix.bits hmatrix)) }

theorem State.SameValues.dLoad (hblk : s.blk.held = true) : SameOutcome (execDLoad s) (execDLoad s') := by
  refine State.SameValues.sameOutcome ?_
  exact { h with rest := by rw [h.rest], matrix := .value (congrArg loadMatrix (h.blk.bits hblk)) }

theorem State.SameValues.dInvperm (hmatrix : s.matrix.held = true) :
    SameOutcome (execDInvperm s) (execDInvperm s') := by
  refine State.SameValues.sameOutcome ?_
  exact { h with rest := by rw [h.rest], matrix := .value (congrArg invPermute (h.matrix.bits hmatrix)) }

theorem State.SameValues.dExport (hmatrix : s.matrix.held = true) : SameOutcome (execDExport s) (execDExport s') := by
  refine State.SameValues.sameOutcome ?_
  exact { h with rest := by rw [h.rest], fed := .value (congrArg exportMatrix (h.matrix.bits hmatrix)) }

theorem State.SameValues.dXor (hfed : s.fed.held = true) (hkeyround : s.keyround.held = true) :
    SameOutcome (execDXor s) (execDXor s') := by
  have hout : xorBlock s'.fed.bits s'.keyround.bits = xorBlock s.fed.bits s.keyround.bits := by
    rw [h.fed.eq hfed, h.keyround.eq hkeyround]
  refine State.SameValues.sameOutcome ?_
  exact { h with rest := by rw [h.rest], out := .value hout }

theorem State.SameValues.dChain (hfed : s.fed.held = true) (hkeyround : s.keyround.held = true) :
    SameOutcome (execDChain s) (execDChain s') := by
  have hnext : chainDec Config.decChain s'.keyround.bits s'.fed.bits =
      chainDec Config.decChain s.keyround.bits s.fed.bits := by
    rw [h.fed.eq hfed, h.keyround.eq hkeyround]
  refine State.SameValues.sameOutcome ?_
  exact { h with rest := by rw [h.rest], keyround := .value hnext }

theorem State.SameValues.rNext (houtlen : s.outlen.held = true) (hblkcnt : s.blkcnt.held = true) :
    SameOutcome (execRNext s) (execRNext s') := by
  refine State.SameValues.sameOutcome ?_
  exact { h with
    rest := by rw [h.rest]
    outlen := .value (congrArg (· + 32#32) (h.outlen.bits houtlen))
    blkcnt := .value (congrArg (· + 1#32) (h.blkcnt.bits hblkcnt)) }

theorem State.SameValues.dStrip (htotal : s.total.held = true) (houtlen : s.outlen.held = true) :
    SameOutcome (execDStrip s) (execDStrip s') := by
  intro t t' ht ht'
  rcases s.strip_cases with ⟨_, e⟩ | ⟨_, e⟩
  · rcases s'.strip_cases with ⟨_, e'⟩ | ⟨_, e'⟩
    · cases (execDStrip_setPhase_of_next s.phase e).symm.trans ht
      cases (execDStrip_setPhase_of_next s'.phase e').symm.trans ht'
      refine State.SameValues.setPhase ?_ 21#5
      have htotal' : s'.total.bits = s.total.bits := h.total.bits htotal
      have houtlen' : s'.outlen.bits = s.outlen.bits := h.outlen.bits houtlen
      rw [h.pt_eq, htotal', houtlen']
      exact { h with rest := by rw [h.rest], padcnt := .refl _, outlen := .refl _ }
    · cases (execDStrip_setPhase_of_fault s'.phase e').symm.trans ht'
  · cases (execDStrip_setPhase_of_fault s.phase e).symm.trans ht

theorem State.SameValues.rDone (hop : s.op.held = true) (houtlen : s.outlen.held = true)
    (hpad : s.op.bits = 0x9#4 → s.padcnt.held = true ∧ s.total.held = true) :
    SameOutcome (execRDone s) (execRDone s') := by
  have hop' : s'.op.bits = s.op.bits := h.op.bits hop
  have houtlen' : s'.outlen.bits = s.outlen.bits := h.outlen.bits houtlen
  refine State.SameValues.sameOutcome ?_
  by_cases he : s.op.bits = 0x8#4
  · rw [State.finishRun_of_encrypt he, State.finishRun_of_encrypt (hop'.trans he), houtlen']
    refine State.SameValues.complete ?_ _ _ _ _
    exact { h with rest := by rw [h.rest] }
  · have hpaduf : (s'.op.bits = 0x9#4 ∧ s'.total.bits.toNat < s'.padcnt.bits.toNat) ↔
        (s.op.bits = 0x9#4 ∧ s.total.bits.toNat < s.padcnt.bits.toNat) := by
      rw [hop']
      refine and_congr_right fun hd => ?_
      obtain ⟨hpadcnt, htotal⟩ := hpad hd
      rw [h.padcnt.eq hpadcnt, h.total.eq htotal]
    rw [State.finishRun_of_ne_encrypt he, State.finishRun_of_ne_encrypt (by rwa [hop']), houtlen']
    simp only [hpaduf]
    refine State.SameValues.complete ?_ _ _ _ _
    exact { h with rest := by rw [h.rest] }

end MicroSteps

end Sys2Proof.Machine
end

section
/-! Every step keeps the invariant, and two states that agree in every value held step to two such states (R36, R37).
Both are proved of the micro-steps first; a command is a run of micro-steps (R206), so that both hold of a command by
induction on the headers that wait on the command port, which no micro-step of a run takes. -/

namespace Sys2Proof.Machine

/-! ### One micro-step -/

/-- The micro-step of PHASE keeps the invariant. -/
theorem State.Inv.of_microstep {s t : State} {i : Instr} (h : s.Inv) (hd : decodePhase s.phase = .ok i)
    (ht : exec i s = .next t) : t.Inv := by
  have hcode := encode_of_decodePhase hd
  have hp (p : PhaseCode) (hi : encode i = .phase p) : s.phase = p := Code.phase.inj (hcode.symm.trans hi)
  cases i with
  | setIv | setKey | setPlaintext | setCiphertext | updOther | encrypt | decrypt | runRsvdLow | runRsvdHigh =>
    cases hcode
  | idle => exact h.of_idle (hp _ rfl) ht
  | upd => exact h.of_upd (hp _ rfl) ht
  | rCheck => exact h.of_rCheck (hp _ rfl) ht
  | rInit => exact h.of_rInit (hp _ rfl) ht
  | rTest => exact h.of_rTest (hp _ rfl) ht
  | eCopyin => exact h.of_eCopyin (hp _ rfl) ht
  | eXor => exact h.of_eXor (hp _ rfl) ht
  | eChain => exact h.of_eChain (hp _ rfl) ht
  | eLoad => exact h.of_eLoad (hp _ rfl) ht
  | ePerm => exact h.of_ePerm (hp _ rfl) ht
  | eExport => exact h.of_eExport (hp _ rfl) ht
  | eCopyout => exact h.of_eCopyout (hp _ rfl) ht
  | dCopyin => exact h.of_dCopyin (hp _ rfl) ht
  | dLoad => exact h.of_dLoad (hp _ rfl) ht
  | dInvperm => exact h.of_dInvperm (hp _ rfl) ht
  | dExport => exact h.of_dExport (hp _ rfl) ht
  | dXor => exact h.of_dXor (hp _ rfl) ht
  | dCopyout => exact h.of_dCopyout (hp _ rfl) ht
  | dChain => exact h.of_dChain (hp _ rfl) ht
  | rNext => exact h.of_rNext (hp _ rfl) ht
  | dStrip => exact h.of_dStrip (hp _ rfl) ht
  | rDone => exact h.of_rDone (hp _ rfl) ht

/-- `State.readsHeld` in a known PHASE. -/
theorem State.readsHeld.of_phase {s : State} (h : s.readsHeld) {p : PhaseCode} (hp : s.phase = p) :
    (s.setPhase p).readsHeld := by
  subst hp
  exact h

/-- The micro-step of PHASE gives what the values held decide (R37). -/
theorem State.SameValues.of_microstep {s s' : State} {i : Instr} (h : s.SameValues s') (hreads : s.readsHeld)
    (hd : decodePhase s.phase = .ok i) : SameOutcome (exec i s) (exec i s') := by
  have hcode := encode_of_decodePhase hd
  have hp (p : PhaseCode) (hi : encode i = .phase p) : (s.setPhase p).readsHeld :=
    hreads.of_phase (Code.phase.inj (hcode.symm.trans hi))
  cases i with
  | setIv | setKey | setPlaintext | setCiphertext | updOther | encrypt | decrypt | runRsvdLow | runRsvdHigh =>
    cases hcode
  | idle => exact h.idle
  | upd =>
    obtain ⟨hop, hlenop⟩ := hp _ rfl
    exact h.upd hop hlenop
  | rCheck => exact h.rCheck (hp _ rfl)
  | rInit =>
    obtain ⟨hop, hkey, hiv⟩ := hp _ rfl
    exact h.rInit hop hkey hiv
  | rTest =>
    obtain ⟨hop, hblkcnt, hnmemb⟩ := hp _ rfl
    exact h.rTest hop hblkcnt hnmemb
  | eCopyin =>
    obtain ⟨hblkcnt, _⟩ := hp _ rfl
    exact h.eCopyin hblkcnt
  | eXor =>
    obtain ⟨hblk, hkeyround⟩ := hp _ rfl
    exact h.eXor hblk hkeyround
  | eChain => exact h.eChain (hp _ rfl)
  | eLoad => exact h.eLoad (hp _ rfl)
  | ePerm => exact h.ePerm (hp _ rfl)
  | eExport => exact h.eExport (hp _ rfl)
  | eCopyout =>
    obtain ⟨hout, hblkcnt⟩ := hp _ rfl
    exact h.eCopyout hout hblkcnt
  | dCopyin =>
    obtain ⟨hblkcnt, _⟩ := hp _ rfl
    exact h.dCopyin hblkcnt
  | dLoad => exact h.dLoad (hp _ rfl)
  | dInvperm => exact h.dInvperm (hp _ rfl)
  | dExport => exact h.dExport (hp _ rfl)
  | dXor =>
    obtain ⟨hfed, hkeyround⟩ := hp _ rfl
    exact h.dXor hfed hkeyround
  | dCopyout =>
    obtain ⟨hout, hblkcnt⟩ := hp _ rfl
    exact h.dCopyout hout hblkcnt
  | dChain =>
    obtain ⟨hfed, hkeyround⟩ := hp _ rfl
    exact h.dChain hfed hkeyround
  | rNext =>
    obtain ⟨houtlen, hblkcnt⟩ := hp _ rfl
    exact h.rNext houtlen hblkcnt
  | dStrip =>
    obtain ⟨htotal, houtlen, _⟩ := hp _ rfl
    exact h.dStrip htotal houtlen
  | rDone =>
    obtain ⟨hop, houtlen, hpad⟩ := hp _ rfl
    exact h.rDone hop houtlen hpad

/-! ### Reset -/

/-- The reset state meets the invariant for every MAX_LEN that R9 allows. -/
theorem State.inv_resetWith {n : Nat} (hlow : 32 ≤ n) (hhigh : n ≤ 2 ^ 31) : (State.resetWith n).Inv where
  context :=
    { maxLen := ⟨hlow, hhigh⟩, keyLen := .inl rfl, ivLen := .inl rfl, keyHeld := nofun, ivHeld := nofun
      ptForm := Memory.wf_nil, ctForm := Memory.wf_nil, ptListed := Memory.filledTo_nil
      ctListed := Memory.filledTo_nil, ptExt := Nat.zero_le _, ctExt := Nat.zero_le _
      ptWrapped := fun h => absurd h (Nat.not_lt_zero _), ctLen := .inl rfl, cells := nofun }
  phase := ⟨fun _ => Nat.le_refl _, Nat.le_refl _⟩

/-- Settles O11: the reset state of any legal MAX_LEN, 4096 among them. -/
theorem resetMeetsTheInvariant : Obligations.ResetMeetsTheInvariant :=
  ⟨State.inv_resetWith (by decide) (by decide), fun _ => State.inv_resetWith⟩

/-- A reset from a state with a legal MAX_LEN gives the invariant (R251). -/
theorem State.Inv.toReset {s : State} (h : s.Inv) : s.toReset.Inv := by
  obtain ⟨hlow, hhigh⟩ := h.context.maxLen
  obtain ⟨hcontext, hpt, hct⟩ := State.inv_resetWith hlow hhigh
  exact ⟨{ hcontext with }, hpt, hct⟩

/-- A reset drops the same bytes from the payload port (R251). -/
theorem State.SameValues.payloadAfterReset_eq {s s' : State} (h : s.SameValues s') (hreads : s.readsHeld) :
    s'.payloadAfterReset = s.payloadAfterReset := by
  by_cases hp : s.phase = 1#5
  · obtain ⟨hop, hlenop⟩ := hreads.of_phase hp
    rw [State.payloadAfterReset_of_upd hp, State.payloadAfterReset_of_upd (h.phase_eq.trans hp), h.payPort_eq,
      h.maxLen_eq, h.op.eq hop, h.lenop.eq hlenop]
  · rw [State.payloadAfterReset_of_ne_upd hp, State.payloadAfterReset_of_ne_upd (by rwa [h.phase_eq]), h.payPort_eq]

theorem State.SameValues.toReset_eq {s s' : State} (h : s.SameValues s') (hreads : s.readsHeld) :
    s'.toReset = s.toReset := by
  rw [State.toReset, State.toReset, h.payloadAfterReset_eq hreads, h.maxLen_eq, h.cmdPort_eq, h.respPort_eq,
    h.resetIn_eq, h.storageFault_eq, h.level_eq]

/-! ### A command as a run of micro-steps -/

/-- The micro-steps of the command `op` after its acceptance (R206, R208). -/
def State.commandSteps (op : BitVec 4) (s : State) : Nat :=
  if op = 0x8#4 then
    if s.ivLen = 0#32 ∨ s.keyLen = 0#32 ∨ s.ptLen = 0#32 ∨ s.maxLen < s.ptLen.toNat then 1
    else 4 + 9 * (s.ptLen.toNat / 32)
  else if op = 0x9#4 then
    if s.ivLen = 0#32 ∨ s.keyLen = 0#32 ∨ s.ctLen = 0#32 ∨ s.maxLen < s.ctLen.toNat then 1
    else 5 + 9 * (s.ctLen.toNat / 32)
  else 1

/-- The state in which the first micro-step finds a command (R90, R212). -/
def State.accept (op : BitVec 4) (len : Len) (s : State) : State :=
  s.latch op len (if op.getLsbD 3 then 2#5 else 1#5)

/-- A command is its micro-steps (R11, R206). -/
theorem exec_decodeOp_eq_steps (op : BitVec 4) (len : Len) {s : State} (hr : s.resetIn = false) :
    exec (decodeOp op len) s = steps (s.commandSteps op) (s.accept op len) := by
  rw [State.commandSteps]
  split_ifs with he hrej hd hrej
  · subst he
    exact (steps_encrypt_of_rejected (s := s.latch 0x8#4 len 2#5) hr rfl rfl hrej).symm
  · subst he
    exact (steps_encrypt_of_accepted (s := s.latch 0x8#4 len 2#5) hr rfl rfl hrej).symm
  · subst hd
    exact (steps_decrypt_of_rejected (s := s.latch 0x9#4 len 2#5) hr rfl rfl hrej).symm
  · subst hd
    exact (steps_decrypt_of_accepted (s := s.latch 0x9#4 len 2#5) hr rfl rfl hrej).symm
  · rw [steps_one, State.accept]
    by_cases hclass : op.getLsbD 3 = true
    · rw [if_pos hclass, exec_decodeOp_of_reserved hclass he hd]
      exact (step_of_microstep (s := s.latch op len 2#5) (i := .rCheck) (by decide) hr rfl).symm
    · rw [if_neg hclass, exec_decodeOp_of_update _ _ _ (Bool.eq_false_iff.mpr hclass)]
      exact (step_of_microstep (s := s.latch op len 1#5) (i := .upd) (by decide) hr rfl).symm

theorem State.SameValues.commandSteps_eq {s s' : State} (h : s.SameValues s') (op : BitVec 4) :
    s'.commandSteps op = s.commandSteps op := by
  rw [State.commandSteps, State.commandSteps, h.ivLen_eq, h.keyLen_eq, h.ptLen_eq, h.ctLen_eq, h.maxLen_eq]

/-! ### The headers that wait -/

/-- No command is the micro-step IDLE (R92). -/
theorem decodeHeader_ne_idle (h : Header) : decodeHeader h ≠ .idle := by
  intro hi
  have hcode : encode (decodeHeader h) = .header h := encodeOfDecodeIsTheCode _ _ rfl
  rw [hi] at hcode
  cases hcode

/-- A step puts no header on the command port (R103 item 1). -/
theorem step_cmdPort_length_le {s t : State} (h : step s = .next t) : t.cmdPort.length ≤ s.cmdPort.length := by
  rcases step_cases s with ⟨_, e⟩ | ⟨_, hd, rest, _, _, hc, e⟩ | ⟨_, _, ⟨i, _, e⟩ | ⟨_, _, e⟩⟩
  · cases e.symm.trans h
    exact Nat.le_refl _
  · rw [exec_keepsHeaders (decodeHeader_ne_idle hd) _ t (e.symm.trans h), hc, List.length_cons]
    exact Nat.le_succ _
  · by_cases hi : i = .idle
    · subst hi
      cases hc : s.cmdPort with
      | nil =>
        cases (execIdle_of_nil hc).symm.trans (e.symm.trans h)
        rw [hc]
      | cons hd rest =>
        cases (execIdle_of_cons hc).symm.trans (e.symm.trans h)
        exact Nat.le_succ _
    · rw [exec_keepsHeaders hi s t (e.symm.trans h)]
  · cases e.symm.trans h

theorem steps_succ_next {k : Nat} {s t : State} (h : steps (k + 1) s = .next t) :
    ∃ u, step s = .next u ∧ steps k u = .next t := by
  rw [steps] at h
  cases hs : step s with
  | next u => exact ⟨u, rfl, by rwa [hs] at h⟩
  | fault r => simp [hs] at h
  | refused r => simp [hs] at h

/-! ### One step -/

/-- Two states of the invariant that agree in every value held. -/
structure State.Agree (s s' : State) : Prop where
  inv : s.Inv
  inv' : s'.Inv
  values : s.SameValues s'

/-- Every step of two states that agree, with at most `n` headers waiting, gives two states that agree. -/
def StepsAgree (n : Nat) : Prop :=
  ∀ s s' t t' : State, s.cmdPort.length ≤ n → s.Agree s' → step s = .next t → step s' = .next t' → t.Agree t'

theorem StepsAgree.steps {n : Nat} (h : StepsAgree n) : ∀ (k : Nat) (s s' t t' : State), s.cmdPort.length ≤ n →
    s.Agree s' → steps k s = .next t → steps k s' = .next t' → t.Agree t'
  | 0, _, _, _, _, _, hagree, ht, ht' => by
    cases ht
    cases ht'
    exact hagree
  | k + 1, s, s', t, t', hn, hagree, ht, ht' => by
    obtain ⟨u, hu, hrest⟩ := steps_succ_next ht
    obtain ⟨u', hu', hrest'⟩ := steps_succ_next ht'
    have hnext := h s s' u u' hn hagree hu hu'
    exact StepsAgree.steps h k u u' t t' ((step_cmdPort_length_le hu).trans hn) hnext hrest hrest'

section Agree

variable {s s' t t' : State} (h : s.Agree s')
include h

theorem State.Agree.of_microstep {i : Instr} (hd : decodePhase s.phase = .ok i) (ht : exec i s = .next t)
    (ht' : exec i s' = .next t') : t.Agree t' :=
  ⟨h.inv.of_microstep hd ht, h.inv'.of_microstep (by rwa [h.values.phase_eq]) ht',
    h.values.of_microstep h.inv.readsHeld hd t t' ht ht'⟩

theorem State.Agree.toReset : s.toReset.Agree s'.toReset := by
  rw [h.values.toReset_eq h.inv.readsHeld]
  exact ⟨h.inv.toReset, h.inv.toReset, State.SameValues.refl _⟩

/-- A command runs its micro-steps on the accepted states, which have one header less waiting. -/
theorem State.Agree.of_command {hd : Header} {rest : List Header} (hsteps : StepsAgree rest.length)
    (hr : s.resetIn = false) (hp : s.phase = 0#5) (hc : s.cmdPort = hd :: rest)
    (ht : exec (decodeHeader hd) { s with cmdPort := rest } = .next t)
    (ht' : exec (decodeHeader hd) { s' with cmdPort := rest } = .next t') : t.Agree t' := by
  have hr' : s'.resetIn = false := h.values.resetIn_eq.trans hr
  have haccept := execIdle_of_cons hc
  have haccept' := execIdle_of_cons (h.values.cmdPort_eq.trans hc)
  rw [← opField_classBit] at haccept haccept'
  have hagree := h.of_microstep (i := .idle) (by rw [hp]; rfl) haccept haccept'
  have hcount := (h.values.setCmdPort rest).commandSteps_eq (opField hd)
  rw [decodeHeader, exec_decodeOp_eq_steps _ _ (by exact hr)] at ht
  rw [decodeHeader, exec_decodeOp_eq_steps _ _ (by exact hr'), hcount] at ht'
  exact hsteps.steps _ _ _ t t' (Nat.le_refl _) hagree ht ht'

end Agree

/-- By induction on the headers that wait: only a command, which takes one off the port, is more than a micro-step. -/
theorem stepsAgree (n : Nat) : StepsAgree n := by
  induction n using Nat.strong_induction_on with
  | _ n ih =>
    intro s s' t t' hn h ht ht'
    rcases step_cases s with ⟨hr, e⟩ | ⟨hr, hd, rest, hp, hl, hc, e⟩ | ⟨hr, hnone, ⟨i, hi, e⟩ | ⟨_, _, e⟩⟩
    · cases e.symm.trans ht
      cases (step_of_reset (h.values.resetIn_eq.trans hr)).symm.trans ht'
      exact h.toReset
    · have e' := step_of_header (h.values.resetIn_eq.trans hr) (h.values.phase_eq.trans hp)
        (h.values.level_eq.trans hl) (h.values.cmdPort_eq.trans hc)
      rw [hc, List.length_cons] at hn
      exact h.of_command (ih _ hn) hr hp hc (e.symm.trans ht) (e'.symm.trans ht')
    · rw [← h.values.phase_eq, ← h.values.level_eq, ← h.values.cmdPort_eq] at hnone
      have e' := step_of_phase (h.values.resetIn_eq.trans hr) hnone (by rwa [h.values.phase_eq])
      exact h.of_microstep hi (e.symm.trans ht) (e'.symm.trans ht')
    · cases e.symm.trans ht

theorem State.Agree.step {s s' t t' : State} (h : s.Agree s') (ht : step s = .next t) (ht' : step s' = .next t') :
    t.Agree t' :=
  stepsAgree _ s s' t t' (Nat.le_refl _) h ht ht'

/-- Settles O12: a state agrees with itself, and so does the next one. -/
theorem everyStepKeepsTheInvariant : Obligations.EveryStepKeepsTheInvariant := by
  intro s t h ht
  have hself : s.Agree s := ⟨h, h, State.SameValues.refl s⟩
  exact (hself.step ht ht).inv

/-! ### What the copies in and the strip read -/

/-- A byte that holds a value is what an engine read gives. -/
theorem Memory.lookup_eq_byteAt {m : Memory} {a : Nat} (h : (m.lookup a).isSome = true) (buffer : Buffer) :
    m.lookup a = some (m.byteAt buffer a) := by
  obtain ⟨b, hb⟩ := Option.isSome_iff_exists.mp h
  rw [hb, Memory.byteAt_of_lookup hb]

/-- A block whose bytes hold values is what `MemRead` gives (R15). -/
theorem Memory.lookup_eq_readBlock {m : Memory} {a : Nat} (h : ∀ k < 32, (m.lookup (a + k)).isSome = true)
    (buffer : Buffer) (j : Fin 32) : m.lookup (a + j.val) = some (m.readBlock buffer a)[j] := by
  rw [Memory.lookup_eq_byteAt (h j j.isLt) buffer]
  exact congrArg some (Memory.readBlock_get buffer m a j j.isLt).symm

/-- With the reset input released, a PHASE that names a micro-step other than IDLE has it run. -/
theorem step_of_code {s : State} {i : Instr} {p : PhaseCode} (hi : i ≠ .idle) (hr : s.resetIn = false)
    (hp : s.phase = p) (hd : decodePhase p = .ok i) : step s = exec i s :=
  step_of_microstep hi hr (by rw [hp]; exact hd)

section Reads

variable {s : State} (h : s.Inv) (hr : s.resetIn = false)
include h hr

theorem State.Inv.eCopyin_reads (hp : s.phase = 5#5) : ∃ t, step s = .next t ∧ t.blk.held = true ∧
    ∀ j : Fin 32, s.pt.lookup (32 * s.blkcnt.bits.toNat + j.val) = some t.blk.bits[j] := by
  have hbody : s.BodyInv 0x8#4 := by simpa [State.PhaseInv, hp] using h.phase
  obtain ⟨_, hread⟩ := h.readsHeld.of_phase hp
  have e := (step_of_code (i := .eCopyin) (by decide) hr hp rfl).trans (execECopyin_next hbody.blockInBuffer)
  refine ⟨_, e, rfl, ?_⟩
  rw [← hbody.blockIndex_toNat h.context]
  exact Memory.lookup_eq_readBlock hread .pt

theorem State.Inv.dCopyin_reads (hp : s.phase = 12#5) : ∃ t, step s = .next t ∧ t.blk.held = true ∧
    ∀ j : Fin 32, s.ct.lookup (32 * s.blkcnt.bits.toNat + j.val) = some t.blk.bits[j] := by
  have hbody : s.BodyInv 0x9#4 := by simpa [State.PhaseInv, hp] using h.phase
  obtain ⟨_, hread⟩ := h.readsHeld.of_phase hp
  have e := (step_of_code (i := .dCopyin) (by decide) hr hp rfl).trans (execDCopyin_next hbody.blockInBuffer)
  refine ⟨_, e, rfl, ?_⟩
  rw [← hbody.blockIndex_toNat h.context]
  exact Memory.lookup_eq_readBlock hread .ct

theorem State.Inv.dStrip_reads (hp : s.phase = 20#5) : ∃ t, step s = .next t ∧ t.padcnt.held = true ∧
    s.pt.lookup (s.total.bits.toNat - 1) = some t.padcnt.bits := by
  obtain ⟨hdone, _⟩ : s.LoopDone 0x9#4 ∧ s.outlen.bits = s.total.bits := by
    simpa [State.PhaseInv, hp] using h.phase
  obtain ⟨_, _, hlast⟩ := h.readsHeld.of_phase hp
  have hblock := hdone.loop.block_of_decrypt (congrArg Reg.bits hdone.op) h.context.ctLen
  have hfits := hdone.loop.checked.inputFits
  have htotal := hdone.loop.total_toNat
  have hindex : (s.total.bits - 1#32).toNat = s.total.bits.toNat - 1 := by bv_omega
  have hread : s.pt.lookup (s.total.bits.toNat - 1) = some (s.pt.byteAt .pt (s.total.bits.toNat - 1)) :=
    Memory.lookup_eq_byteAt (hindex ▸ hlast) .pt
  have hstrip := State.strip_of_lookup (by omega) (by omega) hread
  have e := (step_of_code (i := .dStrip) (by decide) hr hp rfl).trans (execDStrip_setPhase_of_next s.phase hstrip)
  exact ⟨_, e, rfl, hread⟩

end Reads

/-- Settles O14: both states step on (O13), and to states that agree; the bytes read are those that PT and CT hold. -/
theorem stepsDependOnlyOnLocationsThatHoldAValue : Obligations.StepsDependOnlyOnLocationsThatHoldAValue := by
  refine ⟨fun s s' h h' hvalues => ?_, fun s h hr => ⟨h.eCopyin_reads hr, h.dCopyin_reads hr, h.dStrip_reads hr⟩,
    fun s => State.Inv.readsHeld⟩
  obtain ⟨t, ht⟩ := noStepStopsUnderTheInvariant s h
  obtain ⟨t', ht'⟩ := noStepStopsUnderTheInvariant s' h'
  have hagree : s.Agree s' := ⟨h, h', hvalues⟩
  exact ⟨t, t', ht, ht', (hagree.step ht ht').values⟩

end Sys2Proof.Machine
end

section
/-! Placed words, the listed reset state and the STATUS word (R30, R32, R38, R221), the accesses that fault (R24, R25), and
what the invariant says in IDLE (R36). -/

namespace Sys2Proof.Machine

/-! ### Placed words -/

/-- What a word of the opcode table decodes to is the meaning of the code that it stands for. -/
theorem code_of_decodeTableWord {nbits w : Nat} {i : Instr} (h : decodeTableWord nbits w = some i) :
    ∃ c, codeOfWord nbits w = .ok c ∧ decode c = .ok i := by
  rw [decodeTableWord, decodeWord] at h
  cases hc : codeOfWord nbits w with
  | error e => simp [hc] at h
  | ok c =>
    refine ⟨c, rfl, ?_⟩
    cases hd : decode c with
    | error e => simp [hc, hd] at h
    | ok j => simpa [hc, hd] using h

/-- Settles O8: a header is taken off the port again, and a PHASE code runs at the micro-step level. -/
theorem placedWordsAreWhatTheNextStepRuns : Obligations.PlacedWordsAreWhatTheNextStepRuns := by
  intro s nbits w i h
  obtain ⟨c, hc, hd⟩ := code_of_decodeTableWord h
  rw [State.withFetchWord, State.placeWord, hc]
  cases c with
  | header hd' =>
    obtain rfl : decodeHeader hd' = i := by simpa [decode] using hd
    exact ⟨{ s.placeHeader hd' with cmdPort := s.cmdPort }, step_of_header rfl rfl rfl rfl, rfl⟩
  | phase p => exact ⟨s.placePhase p, step_of_phase rfl (.inr (.inl rfl)) hd, rfl⟩

/-! ### Reset -/

/-- Settles O9: the fields of the reset state for any MAX_LEN. -/
theorem resetStateIsAsListed : Obligations.ResetStateIsAsListed := by
  intro r hr
  obtain ⟨n, rfl⟩ : ∃ n, r = State.resetWith n := hr.elim (fun h => ⟨_, h⟩) id
  exact ⟨rfl, rfl, rfl, rfl, rfl, rfl, Memory.lookup_nil, Memory.lookup_nil, rfl, rfl, rfl, rfl, rfl, rfl, rfl, rfl,
    rfl, rfl, rfl, rfl, rfl, rfl, rfl, State.statusWord_of_clear rfl rfl, rfl⟩

/-! ### STATUS -/

theorem State.busy_iff (s : State) : s.busy = true ↔ s.phase ≠ 0#5 := bne_iff_ne

/-- The fields of a word put together as R32 puts STATUS together. -/
theorem statusFields (paduf ok busy : Bool) (code : BitVec 3) :
    let word : Len := 0#26 ++ BitVec.ofBool paduf ++ code ++ BitVec.ofBool ok ++ BitVec.ofBool busy
    word.getLsbD 0 = busy ∧ word.getLsbD 1 = ok ∧ word.extractLsb' 2 3 = code ∧ word.getLsbD 5 = paduf ∧
      word.extractLsb' 6 26 = 0#26 := by
  revert paduf ok busy code
  decide

/-- Settles O20: the fields of the word, with BUSY from PHASE and ERR from the cause. -/
theorem statusWordHasItsFieldsInPlace : Obligations.StatusWordHasItsFieldsInPlace := by
  intro s
  obtain ⟨hbusy, hok, hcode, hpaduf, hrest⟩ := statusFields s.status.paduf s.status.ok s.busy s.status.err.code
  refine ⟨?_, hok, hcode.trans ?_, hpaduf, hrest⟩
  · rw [← s.busy_iff]
    exact iff_of_eq (congrArg (· = true) hbusy)
  · cases s.status.err <;> rfl

/-! ### Accesses outside the buffers -/

theorem State.blockIndex_toNat (s : State) : s.blockIndex.toNat = 32 * s.blkcnt.bits.toNat % 2 ^ 32 :=
  BitVec.toNat_mul _ _

/-- Settles O41: the guards of the copies and of the strip. -/
theorem accessesOutsideTheBuffersFault : Obligations.AccessesOutsideTheBuffersFault := by
  intro s at32 last hat hlast
  have hindex : s.blockIndex.toNat = at32 := s.blockIndex_toNat.trans hat.symm
  have hindexLast : (s.total.bits - 1#32).toNat = last := by bv_omega
  subst hindex hindexLast
  refine ⟨fun hout => ?_, fun hin => ?_, fun hout => ?_, fun hin => ?_⟩
  · have hguard : ¬ s.blockInBuffer s.blockIndex = true := by simpa [State.blockInBuffer] using hout
    exact ⟨if_neg hguard, if_neg hguard, if_neg hguard, if_neg hguard⟩
  · have hguard : s.blockInBuffer s.blockIndex = true := by simpa [State.blockInBuffer] using hin
    exact ⟨⟨_, execECopyin_next hguard⟩, ⟨_, execECopyout_next hguard⟩, ⟨_, execDCopyin_next hguard⟩,
      ⟨_, execDCopyout_next hguard⟩⟩
  · exact execDStrip_setPhase_of_fault s.phase (if_neg (Nat.not_lt.mpr hout))
  · exact ⟨_, execDStrip_setPhase_of_next s.phase (if_pos hin)⟩

/-- Settles O54: no block is recovered, so that TOTAL is 0 and the strip reads index `2^32 − 1`. -/
theorem decryptOfLessThanABlockFaults : Obligations.DecryptOfLessThanABlockFaults := by
  intro len s hiv hkey hpos hshort hfits hmax
  have hct : s.ctLen ≠ 0#32 := by bv_omega
  have hset : ¬(s.ivLen = 0#32 ∨ s.keyLen = 0#32 ∨ s.ctLen = 0#32) := by tauto
  have hlast : ((s.decryptLoop len).total.bits - 1#32).toNat = 2 ^ 32 - 1 := by
    have htotal : (totalBytes s.ctLen).toNat = 0 := by
      rw [totalBytes_toNat]
      omega
    rw [s.decryptLoop_total, Reg.value_bits]
    bv_omega
  have hstrip : (s.decryptLoop len).strip = .fault (.outsideBuffer .pt (2 ^ 32 - 1)) := by
    have hloopMax : (s.decryptLoop len).maxLen = s.maxLen := (s.decryptLoop_frame len).maxLen_eq
    rcases (s.decryptLoop len).strip_cases with ⟨hin, _⟩ | ⟨_, e⟩
    · omega
    · rw [e, hlast]
  rcases (s.latch 0x9#4 len 2#5).decryptCall_cases with ⟨h, _⟩ | ⟨_, h, _⟩ | ⟨_, _, ⟨t, ht, _⟩ | ⟨r, hr, e⟩⟩
  · exact absurd h hset
  · exact absurd hfits (Nat.not_le.mpr h)
  · rw [blockCount_toNat] at ht
    cases hstrip.symm.trans ht
  · rw [blockCount_toNat] at hr
    obtain rfl : Fault.outsideBuffer .pt (2 ^ 32 - 1) = r := Host.Outcome.fault.inj (hstrip.symm.trans hr)
    exact e

/-! ### IDLE -/

/-- An answered read of anything but STATUS is made in IDLE (R66 item 2). -/
theorem State.phase_of_hostRead {s : State} {space : BitVec 2} {index v : Len}
    (hne : ¬(space = 0#2 ∧ index = 0#32)) (h : s.hostRead space index = .ok v) : s.phase = 0#5 := by
  by_contra hp
  cases (State.hostRead_of_busy hp hne).symm.trans h

/-- Settles O15: in IDLE no run suspends items 3 and 4 of R36. -/
theorem idleStatesMeetTheListedInvariants : Obligations.IdleStatesMeetTheListedInvariants := by
  refine ⟨fun s h hp => ?_, fun s space index v => State.phase_of_hostRead⟩
  obtain ⟨hpt, hct⟩ : s.ptReadable ∧ s.ctReadable := by simpa [State.PhaseInv, hp] using h.phase
  have hc := h.context
  exact ⟨hc.keyLen, hc.ivLen, hc.keyHeld, hc.ivHeld, hc.ctLen, hct, hc.ctExt, hc.ptExt, hpt, hc.ptWrapped⟩

end Sys2Proof.Machine
end

section
/-! What an instruction does to KEY and IV and to what it reports (R21, R22, R98, R230): every instruction but the
updates of KEY and IV leaves both alone, and every instruction either reports nothing or completes. -/

namespace Sys2Proof.Machine

/-! ### KEY, IV and the report -/

/-- `t` has KEY, IV and their lengths as `s` has them. -/
structure State.SameKeyIv (s t : State) : Prop where
  key : t.key = s.key
  keyLen : t.keyLen = s.keyLen
  iv : t.iv = s.iv
  ivLen : t.ivLen = s.ivLen

/-- From `s` to `t` nothing was reported, or one completion (R98, R230). -/
def State.ReportsTo (s t : State) : Prop :=
  (t.respPort = s.respPort ∧ t.status = s.status ∧ t.result = s.result) ∨
  (t.phase = 0#5 ∧ t.respPort = s.respPort ++ [⟨t.status.ok, t.result⟩])

theorem State.SameKeyIv.trans {s t u : State} (h : s.SameKeyIv t) (h' : t.SameKeyIv u) : s.SameKeyIv u :=
  ⟨h'.key.trans h.key, h'.keyLen.trans h.keyLen, h'.iv.trans h.iv, h'.ivLen.trans h.ivLen⟩

theorem State.Completed.reportsTo {s t : State} {bytes : List Byte} (h : s.Completed bytes t) : s.ReportsTo t :=
  .inr ⟨h.phase, h.respPort⟩

/-! ### Updates -/

theorem State.updateIv_keepsKey (s : State) : s.updateIv.key = s.key ∧ s.updateIv.keyLen = s.keyLen := by
  rcases s.updateIv_cases with ⟨_, e⟩ | ⟨b, rest, _, ⟨_, e⟩ | ⟨_, e⟩⟩ <;> rw [e] <;> exact ⟨rfl, rfl⟩

theorem State.updateKey_keepsIv (s : State) : s.updateKey.iv = s.iv ∧ s.updateKey.ivLen = s.ivLen := by
  rcases s.updateKey_cases with ⟨_, e⟩ | ⟨b, rest, _, ⟨_, e⟩ | ⟨_, e⟩⟩ <;> rw [e] <;> exact ⟨rfl, rfl⟩

theorem State.sameKeyIv_updatePlaintext (s : State) : s.SameKeyIv s.updatePlaintext := by
  rcases s.updatePlaintext_cases with ⟨_, e⟩ | ⟨_, _, e⟩ | ⟨_, _, ⟨_, e⟩ | ⟨bs, rest, _, _, e⟩⟩ <;>
    rw [e] <;> exact ⟨rfl, rfl, rfl, rfl⟩

theorem State.sameKeyIv_updateCiphertext (s : State) : s.SameKeyIv s.updateCiphertext := by
  rcases s.updateCiphertext_cases with ⟨_, e⟩ | ⟨_, _, e⟩ | ⟨_, _, ⟨_, e⟩ | ⟨bs, rest, _, _, e⟩⟩ <;>
    rw [e] <;> exact ⟨rfl, rfl, rfl, rfl⟩

/-- An update waits and reports nothing, or completes (R121). -/
theorem State.reportsTo_updateIv (s : State) : s.ReportsTo s.updateIv := by
  rcases s.updateIv_cases with ⟨_, e⟩ | ⟨b, rest, _, ⟨_, e⟩ | ⟨_, e⟩⟩ <;> rw [e]
  · exact .inl ⟨rfl, rfl, rfl⟩
  · exact .inr ⟨rfl, rfl⟩
  · exact .inr ⟨rfl, rfl⟩

theorem State.reportsTo_updateKey (s : State) : s.ReportsTo s.updateKey := by
  rcases s.updateKey_cases with ⟨_, e⟩ | ⟨b, rest, _, ⟨_, e⟩ | ⟨_, e⟩⟩ <;> rw [e]
  · exact .inl ⟨rfl, rfl, rfl⟩
  · exact .inr ⟨rfl, rfl⟩
  · exact .inr ⟨rfl, rfl⟩

theorem State.reportsTo_updatePlaintext (s : State) : s.ReportsTo s.updatePlaintext := by
  rcases s.updatePlaintext_cases with ⟨_, e⟩ | ⟨_, _, e⟩ | ⟨_, _, ⟨_, e⟩ | ⟨bs, rest, _, _, e⟩⟩ <;> rw [e]
  · exact .inr ⟨rfl, rfl⟩
  · exact .inr ⟨rfl, rfl⟩
  · exact .inl ⟨rfl, rfl, rfl⟩
  · exact .inr ⟨rfl, rfl⟩

theorem State.reportsTo_updateCiphertext (s : State) : s.ReportsTo s.updateCiphertext := by
  rcases s.updateCiphertext_cases with ⟨_, e⟩ | ⟨_, _, e⟩ | ⟨_, _, ⟨_, e⟩ | ⟨bs, rest, _, _, e⟩⟩ <;> rw [e]
  · exact .inr ⟨rfl, rfl⟩
  · exact .inr ⟨rfl, rfl⟩
  · exact .inl ⟨rfl, rfl, rfl⟩
  · exact .inr ⟨rfl, rfl⟩

/-! ### What every other instruction leaves -/

/-- `t` has KEY and IV of `s`, and at most one completion reported. -/
structure State.Effect (s t : State) : Prop where
  keyIv : s.SameKeyIv t
  report : s.ReportsTo t

/-- If the outcome is a next state, it has KEY and IV of `s`, and at most one completion reported. -/
def State.HasEffect (s : State) (o : Host.Outcome State Fault Refusal) : Prop := ∀ t, o = .next t → s.Effect t

theorem State.Effect.next {s t : State} (h : s.Effect t) : s.HasEffect (.next t) := by
  rintro _ ⟨⟩
  exact h

theorem State.hasEffect_fault (s : State) (r : Fault) : s.HasEffect (.fault r) := by
  rintro _ ⟨⟩

/-- A micro-step that reports nothing and touches neither KEY nor IV. -/
theorem State.SameKeyIv.quiet {s t : State} (h : s.SameKeyIv t)
    (hquiet : t.respPort = s.respPort ∧ t.status = s.status ∧ t.result = s.result) : s.HasEffect (.next t) :=
  State.Effect.next ⟨h, .inl hquiet⟩

theorem State.hasEffect_guarded {s t : State} {r : Fault} (b : Bool) (h : s.Effect t) :
    s.HasEffect (if b then .next t else .fault r) := by
  cases b
  · exact s.hasEffect_fault r
  · exact h.next

theorem State.effect_fail (s : State) (c : Cause) : s.Effect (s.fail c) :=
  ⟨⟨rfl, rfl, rfl, rfl⟩, (s.completed_fail c).reportsTo⟩

theorem State.sameKeyIv_initRun (s : State) : s.SameKeyIv s.initRun := by
  rw [State.initRun]
  split <;> exact ⟨rfl, rfl, rfl, rfl⟩

theorem State.EncryptFrame.sameKeyIv {s t : State} (h : s.EncryptFrame t) : s.SameKeyIv t := by
  rw [h]
  exact ⟨rfl, rfl, rfl, rfl⟩

theorem State.DecryptFrame.sameKeyIv {s t : State} (h : s.DecryptFrame t) : s.SameKeyIv t := by
  rw [h]
  exact ⟨rfl, rfl, rfl, rfl⟩

theorem State.sameKeyIv_of_strip {s t : State} (h : s.strip = .next t) : s.SameKeyIv t := by
  rcases s.strip_cases with ⟨_, e⟩ | ⟨_, e⟩
  · cases e.symm.trans h
    exact ⟨rfl, rfl, rfl, rfl⟩
  · cases e.symm.trans h

theorem State.sameKeyIv_encryptCall (s : State) : s.SameKeyIv s.encryptCall := by
  rcases s.encryptCall_cases with ⟨_, e⟩ | ⟨_, _, e⟩ | ⟨_, _, e⟩ <;> rw [e]
  · exact ⟨rfl, rfl, rfl, rfl⟩
  · exact ⟨rfl, rfl, rfl, rfl⟩
  · have hloop := (State.EncryptFrame.refl s.initRun).encryptBlocks (blockCount s.ptLen).toNat
    obtain ⟨hkey, hkeyLen, hiv, hivLen⟩ := s.sameKeyIv_initRun.trans hloop.sameKeyIv
    exact ⟨hkey, hkeyLen, hiv, hivLen⟩

theorem State.sameKeyIv_of_decryptCall {s t : State} (h : s.decryptCall = .next t) : s.SameKeyIv t := by
  rcases s.decryptCall_cases with ⟨_, e⟩ | ⟨_, _, e⟩ | ⟨_, _, ⟨u, hstrip, e⟩ | ⟨r, _, e⟩⟩ <;> cases e.symm.trans h
  · exact ⟨rfl, rfl, rfl, rfl⟩
  · exact ⟨rfl, rfl, rfl, rfl⟩
  · have hloop := (State.DecryptFrame.refl s.initRun).decryptBlocks (blockCount s.ctLen).toNat
    have hrun := s.sameKeyIv_initRun.trans hloop.sameKeyIv
    obtain ⟨hkey, hkeyLen, hiv, hivLen⟩ := hrun.trans (State.sameKeyIv_of_strip hstrip)
    exact ⟨hkey, hkeyLen, hiv, hivLen⟩

theorem State.hasEffect_dStrip (s : State) : s.HasEffect (execDStrip s) := by
  rcases s.strip_cases with ⟨_, e⟩ | ⟨_, e⟩ <;> rw [execDStrip, e]
  · exact State.SameKeyIv.quiet ⟨rfl, rfl, rfl, rfl⟩ ⟨rfl, rfl, rfl⟩
  · exact s.hasEffect_fault _

theorem State.hasEffect_idle (s : State) : s.HasEffect (execIdle s) := by
  rw [execIdle]
  split <;> exact State.SameKeyIv.quiet ⟨rfl, rfl, rfl, rfl⟩ ⟨rfl, rfl, rfl⟩

theorem State.hasEffect_rCheck (s : State) : s.HasEffect (execRCheck s) := by
  refine State.Effect.next ?_
  split_ifs
  · exact s.effect_fail _
  · exact s.effect_fail _
  · exact s.effect_fail _
  · exact ⟨⟨rfl, rfl, rfl, rfl⟩, .inl ⟨rfl, rfl, rfl⟩⟩

theorem State.hasEffect_rInit (s : State) : s.HasEffect (execRInit s) := by
  rw [execRInit, State.initRun]
  split <;> exact State.SameKeyIv.quiet ⟨rfl, rfl, rfl, rfl⟩ ⟨rfl, rfl, rfl⟩

theorem State.effect_finishRun (s : State) : s.Effect s.finishRun := by
  rw [State.finishRun]
  split <;> exact ⟨⟨rfl, rfl, rfl, rfl⟩, .inr ⟨rfl, rfl⟩⟩

/-- Accepting a packet touches neither KEY nor IV and reports nothing (R90). -/
theorem State.Effect.of_latch {s t : State} {op : BitVec 4} {len : Len} {p : PhaseCode}
    (h : (s.latch op len p).Effect t) : s.Effect t := by
  obtain ⟨⟨hkey, hkeyLen, hiv, hivLen⟩, hreport⟩ := h
  exact ⟨⟨hkey, hkeyLen, hiv, hivLen⟩, hreport⟩

/-- Every instruction but the updates of KEY and IV leaves both alone, and reports at most one completion. -/
theorem exec_hasEffect (i : Instr) (s : State) (hiv : ∀ len, i ≠ .setIv len) (hkey : ∀ len, i ≠ .setKey len)
    (hupd : i ≠ .upd) : s.HasEffect (exec i s) := by
  cases i with
  | setIv len => exact absurd rfl (hiv len)
  | setKey len => exact absurd rfl (hkey len)
  | upd => exact absurd rfl hupd
  | setPlaintext len =>
    exact (State.Effect.of_latch ⟨State.sameKeyIv_updatePlaintext _, State.reportsTo_updatePlaintext _⟩).next
  | setCiphertext len =>
    exact (State.Effect.of_latch ⟨State.sameKeyIv_updateCiphertext _, State.reportsTo_updateCiphertext _⟩).next
  | updOther | runRsvdLow | runRsvdHigh => exact (State.effect_fail _ _).of_latch.next
  | encrypt len =>
    exact (State.Effect.of_latch ⟨State.sameKeyIv_encryptCall _, (State.completed_encryptCall _).reportsTo⟩).next
  | decrypt len =>
    exact fun t ht => State.Effect.of_latch
      ⟨State.sameKeyIv_of_decryptCall ht, (State.completed_of_decryptCall ht).reportsTo⟩
  | idle => exact s.hasEffect_idle
  | rCheck => exact s.hasEffect_rCheck
  | rInit => exact s.hasEffect_rInit
  | dStrip => exact s.hasEffect_dStrip
  | rDone => exact s.effect_finishRun.next
  | eCopyin | eCopyout | dCopyin | dCopyout =>
    exact State.hasEffect_guarded _ ⟨⟨rfl, rfl, rfl, rfl⟩, .inl ⟨rfl, rfl, rfl⟩⟩
  | rTest | eXor | eChain | eLoad | ePerm | eExport | dLoad | dInvperm | dExport | dXor | dChain | rNext =>
    exact State.SameKeyIv.quiet ⟨rfl, rfl, rfl, rfl⟩ ⟨rfl, rfl, rfl⟩

/-! ### UPD by its mode -/

/-- UPD touches KEY in mode 1 only (R120). -/
theorem State.upd_keepsKey {s t : State} (hmode : s.op.bits.extractLsb' 0 3 ≠ 1#3) (ht : exec .upd s = .next t) :
    t.key = s.key ∧ t.keyLen = s.keyLen := by
  obtain rfl := Host.Outcome.next.inj ht
  split_ifs
  · exact s.updateIv_keepsKey
  · exact ⟨s.sameKeyIv_updatePlaintext.key, s.sameKeyIv_updatePlaintext.keyLen⟩
  · exact ⟨s.sameKeyIv_updateCiphertext.key, s.sameKeyIv_updateCiphertext.keyLen⟩
  · exact ⟨rfl, rfl⟩

/-- UPD touches IV in mode 0 only (R120). -/
theorem State.upd_keepsIv {s t : State} (hmode : s.op.bits.extractLsb' 0 3 ≠ 0#3) (ht : exec .upd s = .next t) :
    t.iv = s.iv ∧ t.ivLen = s.ivLen := by
  obtain rfl := Host.Outcome.next.inj ht
  rw [if_neg hmode]
  split_ifs
  · exact s.updateKey_keepsIv
  · exact ⟨s.sameKeyIv_updatePlaintext.iv, s.sameKeyIv_updatePlaintext.ivLen⟩
  · exact ⟨s.sameKeyIv_updateCiphertext.iv, s.sameKeyIv_updateCiphertext.ivLen⟩
  · exact ⟨rfl, rfl⟩

theorem State.upd_reportsTo {s t : State} (ht : exec .upd s = .next t) : s.ReportsTo t := by
  rcases execUpd_cases s with e | e | e | e | e <;> cases e.symm.trans ht
  · exact s.reportsTo_updateIv
  · exact s.reportsTo_updateKey
  · exact s.reportsTo_updatePlaintext
  · exact s.reportsTo_updateCiphertext
  · exact (s.completed_fail _).reportsTo

/-- UPD, an update of IV, an update of KEY, or another instruction. -/
theorem Instr.update_cases (i : Instr) :
    i = .upd ∨ (∃ len, i = .setIv len) ∨ (∃ len, i = .setKey len) ∨
    ((∀ len, i ≠ .setIv len) ∧ (∀ len, i ≠ .setKey len) ∧ i ≠ .upd) := by
  by_cases hupd : i = .upd
  · exact .inl hupd
  · by_cases hiv : ∃ len, i = .setIv len
    · exact .inr (.inl hiv)
    · by_cases hkey : ∃ len, i = .setKey len
      · exact .inr (.inr (.inl hkey))
      · exact .inr (.inr (.inr ⟨not_exists.mp hiv, not_exists.mp hkey, hupd⟩))

/-- Settles O16: each update writes its own register, UPD that of its mode, and every other instruction neither. -/
theorem onlySetKeyAndSetIvWriteKeyAndIv : Obligations.OnlySetKeyAndSetIvWriteKeyAndIv := by
  intro i s t ht
  rcases Instr.update_cases i with rfl | ⟨len, rfl⟩ | ⟨len, rfl⟩ | ⟨hiv, hkey, hupd⟩
  · exact ⟨fun _ hmode => State.upd_keepsKey (fun h => hmode ⟨rfl, h⟩) ht,
      fun _ hmode => State.upd_keepsIv (fun h => hmode ⟨rfl, h⟩) ht⟩
  · cases ht
    exact ⟨fun _ _ => State.updateIv_keepsKey _, fun hne _ => absurd rfl (hne len)⟩
  · cases ht
    exact ⟨fun hne _ => absurd rfl (hne len), fun _ _ => State.updateKey_keepsIv _⟩
  · obtain ⟨⟨hkeySame, hkeyLen, hivSame, hivLen⟩, _⟩ := exec_hasEffect i s hiv hkey hupd t ht
    exact ⟨fun _ _ => ⟨hkeySame, hkeyLen⟩, fun _ _ => ⟨hivSame, hivLen⟩⟩

/-- Settles O19: the updates of IV and KEY, and every other instruction with what it leaves. -/
theorem statusAndResultChangeOnlyAtACompletion : Obligations.StatusAndResultChangeOnlyAtACompletion := by
  intro i s t ht
  rcases Instr.update_cases i with rfl | ⟨len, rfl⟩ | ⟨len, rfl⟩ | ⟨hiv, hkey, hupd⟩
  · exact State.upd_reportsTo ht
  · cases ht
    exact State.reportsTo_updateIv (s.latch 0x0#4 len 1#5)
  · cases ht
    exact State.reportsTo_updateKey (s.latch 0x1#4 len 1#5)
  · exact (exec_hasEffect i s hiv hkey hupd t ht).report

end Sys2Proof.Machine
end

section
/-! Two runs that may differ in what they leave behind (R39, R147): ENCRYPT and DECRYPT read KEY, IV and the input text,
and no working register that they have not written. -/

namespace Sys2Proof.Machine

/-! ### The output buffer is canonical -/

theorem State.encryptBlocks_ct_wf (n : Nat) {s : State} (h : s.ct.wf) : (State.encryptBlocks n s).ct.wf :=
  State.encryptBlocks_induct (P := fun t => t.ct.wf)
    (fun t ht => by rw [t.encryptBlock_ct]; exact Memory.wf_writeBytes ht _ _) n s h

theorem State.decryptBlocks_pt_wf (n : Nat) {s : State} (h : s.pt.wf) : (State.decryptBlocks n s).pt.wf :=
  State.decryptBlocks_induct (P := fun t => t.pt.wf)
    (fun t ht => by rw [t.decryptBlock_pt]; exact Memory.wf_writeBytes ht _ _) n s h

theorem State.encryptLoop_ct_wf (len : Len) (s : State) : (s.encryptLoop len).ct.wf :=
  State.encryptBlocks_ct_wf _ Memory.wf_nil

theorem State.decryptLoop_pt_wf (len : Len) (s : State) : (s.decryptLoop len).pt.wf :=
  State.decryptBlocks_pt_wf _ Memory.wf_nil

/-- Two canonical buffers that hold the same blocks are the same. -/
theorem Memory.HoldsBlocks.eq {m m' : Memory} {n : Nat} {b b' : Nat → Fin 32 → Byte} (h : m.HoldsBlocks n b)
    (h' : m'.HoldsBlocks n b') (hwf : m.wf) (hwf' : m'.wf) (hb : ∀ i < n, ∀ j, b i j = b' i j) : m = m' := by
  refine Memory.ext_of_wf hwf hwf' fun a => ?_
  by_cases ha : a < 32 * n
  · obtain ⟨i, j, rfl⟩ : ∃ (i : Nat) (j : Fin 32), a = 32 * i + j.val :=
      ⟨a / 32, ⟨a % 32, Nat.mod_lt _ (by decide)⟩, (Nat.div_add_mod a 32).symm⟩
    rw [h.inside i (by omega) j, h'.inside i (by omega) j, hb i (by omega) j]
  · rw [h.outside a (by omega), h'.outside a (by omega)]

/-! ### The same blocks after the loop -/

/-- Two runs that count the same blocks are alike in all that a run gives. -/
theorem State.AfterBlocks.agree {s s' t t' : State} {blocks blocks' written written' : Nat → Fin 32 → Byte} {n : Nat}
    {output output' : Memory} {ext ext' : Len} (h : s.AfterBlocks blocks written n t output ext)
    (h' : s'.AfterBlocks blocks' written' n t' output' ext') (hwf : output.wf) (hwf' : output'.wf)
    (hk0 : ∀ j, s.k0Byte j = s'.k0Byte j) (hblocks : ∀ i < n, ∀ j, blocks i j = blocks' i j)
    (hwritten : ∀ i < n, ∀ j, written i j = written' i j) :
    output = output' ∧ ext = ext' ∧ t.outlen.bits = t'.outlen.bits ∧ t.keyround = t'.keyround := by
  refine ⟨h.output.eq h'.output hwf hwf' hwritten, h.ext.trans h'.ext.symm, h.outlen.trans h'.outlen.symm, ?_⟩
  rw [Reg.eq_value h.keyroundHeld, Reg.eq_value h'.keyroundHeld]
  refine congrArg Reg.value (Vector.ext fun k hk => ?_)
  have hchain : s.chainByte blocks n ⟨k, hk⟩ = s'.chainByte blocks' n ⟨k, hk⟩ := by
    cases n with
    | zero => exact hk0 _
    | succ n => exact hblocks n (Nat.lt_succ_self n) _
  exact (h.keyround ⟨k, hk⟩).trans (hchain.trans (h'.keyround ⟨k, hk⟩).symm)

section SameText

variable {s s' : State} (hkey : s.key.bits = s'.key.bits) (hiv : s.iv.bits = s'.iv.bits)
include hkey hiv

theorem State.k0Byte_congr (j : Fin 32) : s.k0Byte j = s'.k0Byte j := by
  rw [State.k0Byte, State.k0Byte, hkey, hiv]

/-- F_i is a function of K0 and the plaintext up to block `i` (R147). -/
theorem State.fedByte_congr {n : Nat} (htext : ∀ a < 32 * n, s.pt.byteAt .pt a = s'.pt.byteAt .pt a) (j : Fin 32) :
    ∀ i < n, s.fedByte i j = s'.fedByte i j
  | 0, hi => by
    rw [State.fedByte, State.fedByte, State.k0Byte_congr hkey hiv, State.plainByte, State.plainByte, htext _ (by omega)]
  | i + 1, hi => by
    rw [s.fedByte_succ, s'.fedByte_succ, State.fedByte_congr htext j i (by omega), State.plainByte, State.plainByte,
      htext _ (by omega)]

/-- Q_i is a function of K0 and the ciphertext up to block `i` (R147). -/
theorem State.recoveredByte_congr {n : Nat} (htext : ∀ a < 32 * n, s.ct.byteAt .ct a = s'.ct.byteAt .ct a)
    (j : Fin 32) : ∀ i < n, s.recoveredByte i j = s'.recoveredByte i j
  | 0, hi => by
    rw [State.recoveredByte, State.recoveredByte, State.k0Byte_congr hkey hiv, State.unpermutedByte,
      State.unpermutedByte, htext _ (by omega)]
  | i + 1, hi => by
    rw [State.recoveredByte, State.recoveredByte, State.recoveredByte_congr htext j i (by omega), State.unpermutedByte,
      State.unpermutedByte, htext _ (by omega)]

end SameText

/-- Settles O58: both runs in the closed form of R145. -/
theorem runCommandsDependOnlyOnKeyIvAndText : Obligations.RunCommandsDependOnlyOnKeyIvAndText := by
  intro len len' s s' hkey hiv hkeyLen hivLen hmax hkeySet hivSet
  have hk0 := State.k0Byte_congr hkey hiv
  refine ⟨fun hlen hpt hfits htext => ?_, fun hlen hblock hfits htext => ?_⟩
  · have hfed (i : Nat) (hi : i < s.ptLen.toNat / 32) (j : Fin 32) := State.fedByte_congr hkey hiv htext j i hi
    have hloop' := s'.encrypted_encryptLoop len'
    rw [← hlen] at hloop'
    obtain ⟨hct, hext, houtlen, hkeyround⟩ := (s.encrypted_encryptLoop len).agree hloop'
      (s.encryptLoop_ct_wf len) (s'.encryptLoop_ct_wf len') hk0 hfed fun i hi j => hfed i hi _
    refine ⟨_, _, exec_encrypt_of_accepted len (by tauto) hfits,
      exec_encrypt_of_accepted len' (by rw [← hkeyLen, ← hivLen, ← hlen]; tauto) (by rwa [← hlen, ← hmax]), ?_⟩
    exact ⟨hct, houtlen, hext, houtlen, rfl, hkeyround⟩
  · have hrecovered (i : Nat) (hi : i < s.ctLen.toNat / 32) (j : Fin 32) :=
      State.recoveredByte_congr hkey hiv htext j i hi
    have hloop' := s'.decrypted_decryptLoop len'
    rw [← hlen] at hloop'
    obtain ⟨hpt, hext, houtlen, hkeyround⟩ := (s.decrypted_decryptLoop len).agree hloop'
      (s.decryptLoop_pt_wf len) (s'.decryptLoop_pt_wf len') hk0 hrecovered hrecovered
    have hpad : s.recoveredByte (s.ctLen.toNat / 32 - 1) 31 = s'.recoveredByte (s'.ctLen.toNat / 32 - 1) 31 := by
      rw [← hlen]
      exact hrecovered _ (by omega) 31
    generalize hp : s.recoveredByte (s.ctLen.toNat / 32 - 1) 31 = p at hpad
    have hpt' : (s.stripped len p).pt = (s'.stripped len' p).pt := by
      rw [State.stripped, State.stripped, hpt, hlen]
    have houtlen' : (s.stripped len p).outlen.bits = (s'.stripped len' p).outlen.bits := by
      rw [State.stripped, State.stripped, houtlen]
    have hstatus : decide (32 * (s.ctLen.toNat / 32) < p.toNat) = decide (32 * (s'.ctLen.toNat / 32) < p.toNat) := by
      rw [hlen]
    refine ⟨_, _, exec_decrypt_of_accepted len hivSet hkeySet hblock hfits hp.symm,
      exec_decrypt_of_accepted len' (by rwa [← hivLen]) (by rwa [← hkeyLen]) (by rwa [← hlen])
        (by rwa [← hlen, ← hmax]) hpad, ?_⟩
    exact ⟨hpt', houtlen', hext, houtlen', congrArg (Status.mk true .none) hstatus, hkeyround⟩

/-! ### The same state but for the staging registers -/

/-- `t` is `s` but for what a run writes before it reads it: BLK, FED, OUT and PADCNT (R39). -/
def State.SameButStaging (s t : State) : Prop :=
  t = { s with blk := t.blk, fed := t.fed, out := t.out, padcnt := t.padcnt }

section SameButStaging

variable {s t : State} (h : s.SameButStaging t)
include h

theorem State.SameButStaging.encryptBlock : s.encryptBlock.SameButStaging t.encryptBlock := by
  rw [h]
  simp only [State.SameButStaging, State.encryptBlock, State.blockIndex]

theorem State.SameButStaging.decryptBlock : s.decryptBlock.SameButStaging t.decryptBlock := by
  rw [h]
  simp only [State.SameButStaging, State.decryptBlock, State.blockIndex]

end SameButStaging

theorem State.SameButStaging.encryptBlocks {s t : State} (h : s.SameButStaging t) (n : Nat) :
    (State.encryptBlocks n s).SameButStaging (State.encryptBlocks n t) := by
  induction n generalizing s t with
  | zero => exact h
  | succ n ih => exact ih h.encryptBlock

theorem State.SameButStaging.decryptBlocks {s t : State} (h : s.SameButStaging t) (n : Nat) :
    (State.decryptBlocks n s).SameButStaging (State.decryptBlocks n t) := by
  induction n generalizing s t with
  | zero => exact h
  | succ n ih => exact ih h.decryptBlock

/-- `t` is `s` but for the working registers (R39). -/
def State.SameButWorking (s t : State) : Prop :=
  t = { s with
    keyround := t.keyround, matrix := t.matrix, blk := t.blk, fed := t.fed, out := t.out, blkcnt := t.blkcnt
    nmemb := t.nmemb, total := t.total, outlen := t.outlen, padcnt := t.padcnt, op := t.op, lenop := t.lenop }

section SameButWorking

variable {s s' : State} (h : s.SameButWorking s') (len : Len)
include h

/-- Accepting an ENCRYPT and R_INIT write every working register but BLK, FED, OUT and PADCNT (R90, R186). -/
theorem State.SameButWorking.encryptLoop : (s.encryptLoop len).SameButStaging (s'.encryptLoop len) := by
  have hlen : s'.ptLen = s.ptLen := by rw [h]
  have hinit : (s.latch 0x8#4 len 2#5).initRun.SameButStaging (s'.latch 0x8#4 len 2#5).initRun := by
    rw [h]
    rfl
  rw [State.encryptLoop, State.encryptLoop, hlen]
  exact hinit.encryptBlocks _

/-- Accepting a DECRYPT and R_INIT write every working register but BLK, FED, OUT and PADCNT (R90, R186). -/
theorem State.SameButWorking.decryptLoop : (s.decryptLoop len).SameButStaging (s'.decryptLoop len) := by
  have hlen : s'.ctLen = s.ctLen := by rw [h]
  have hinit : (s.latch 0x9#4 len 2#5).initRun.SameButStaging (s'.latch 0x9#4 len 2#5).initRun := by
    rw [h]
    rfl
  rw [State.decryptLoop, State.decryptLoop, hlen]
  exact hinit.decryptBlocks _

end SameButWorking

/-- The strip reads none of the staging registers and writes PADCNT (R214). -/
theorem State.SameButStaging.strip {s s' t : State} (h : s.SameButStaging s') (ht : s.strip = .next t) :
    ∃ t', s'.strip = .next t' ∧ t.SameButStaging t' ∧ t'.padcnt = t.padcnt := by
  have htotal : s'.total = s.total := by rw [h]
  have hmax : s'.maxLen = s.maxLen := by rw [h]
  have hpt : s'.pt = s.pt := by rw [h]
  rcases s.strip_cases with ⟨hin, e⟩ | ⟨_, e⟩
  · cases e.symm.trans ht
    rcases s'.strip_cases with ⟨_, e'⟩ | ⟨hout, _⟩
    · refine ⟨_, e', ?_, by rw [hpt, htotal]⟩
      rw [h]
      rfl
    · rw [htotal, hmax] at hout
      omega
  · cases e.symm.trans ht

/-- A run command that succeeds was stopped by no precondition (R182). -/
theorem accepted_of_encrypt_ok {len : Len} {s t : State} (ht : exec (.encrypt len) s = .next t)
    (hok : t.status.ok = true) :
    ¬(s.ivLen = 0#32 ∨ s.keyLen = 0#32 ∨ s.ptLen = 0#32) ∧ s.ptLen.toNat ≤ s.maxLen := by
  obtain rfl : (s.latch 0x8#4 len 2#5).encryptCall = t := Host.Outcome.next.inj ht
  rcases (s.latch 0x8#4 len 2#5).encryptCall_cases with ⟨_, e⟩ | ⟨_, _, e⟩ | ⟨hset, hfits, _⟩
  · rw [e] at hok
    cases hok
  · rw [e] at hok
    cases hok
  · exact ⟨hset, hfits⟩

/-- A DECRYPT that succeeds ran the loop and the strip (R181). -/
theorem decrypt_ok_cases {len : Len} {s t : State} (ht : exec (.decrypt len) s = .next t)
    (hok : t.status.ok = true) : ∃ u, (s.decryptLoop len).strip = .next u ∧
      ¬(s.ivLen = 0#32 ∨ s.keyLen = 0#32 ∨ s.ctLen = 0#32) ∧ s.ctLen.toNat ≤ s.maxLen ∧
      t = ({ u with ptLen := u.outlen.bits } : State).done (decide (u.total.bits.toNat < u.padcnt.bits.toNat))
        u.outlen.bits := by
  rcases (s.latch 0x9#4 len 2#5).decryptCall_cases with ⟨_, e⟩ | ⟨_, _, e⟩ | ⟨hset, hfits, ⟨u, hu, e⟩ | ⟨r, _, e⟩⟩ <;>
    cases e.symm.trans ht
  · cases hok
  · cases hok
  · rw [blockCount_toNat] at hu
    exact ⟨u, hu, hset, hfits, rfl⟩

/-- A DECRYPT that no precondition stops and whose strip goes on (R181). -/
theorem exec_decrypt_of_strip {len : Len} {s u : State} (hset : ¬(s.ivLen = 0#32 ∨ s.keyLen = 0#32 ∨ s.ctLen = 0#32))
    (hfits : s.ctLen.toNat ≤ s.maxLen) (hu : (s.decryptLoop len).strip = .next u) :
    exec (.decrypt len) s = .next (({ u with ptLen := u.outlen.bits } : State).done
      (decide (u.total.bits.toNat < u.padcnt.bits.toNat)) u.outlen.bits) := by
  rcases (s.latch 0x9#4 len 2#5).decryptCall_cases with ⟨h, _⟩ | ⟨_, h, _⟩ | ⟨_, _, ⟨v, hv, e⟩ | ⟨r, hr, _⟩⟩
  · exact absurd h hset
  · exact absurd hfits (Nat.not_le.mpr h)
  · rw [blockCount_toNat] at hv
    obtain rfl : u = v := Host.Outcome.next.inj (hu.symm.trans hv)
    exact e
  · rw [blockCount_toNat] at hr
    cases hu.symm.trans hr

/-- Settles O60: the two runs differ in the staging registers alone once R_INIT has written the others. -/
theorem workingRegistersCarryNothing : Obligations.WorkingRegistersCarryNothing := by
  intro len s s' i hi h t ht hok
  have hworking : s.SameButWorking s' := h
  have hiv : s'.ivLen = s.ivLen := by rw [h]
  have hkey : s'.keyLen = s.keyLen := by rw [h]
  have hpt : s'.ptLen = s.ptLen := by rw [h]
  have hct : s'.ctLen = s.ctLen := by rw [h]
  have hmax : s'.maxLen = s.maxLen := by rw [h]
  rcases hi with rfl | rfl
  · obtain ⟨hset, hfits⟩ := accepted_of_encrypt_ok ht hok
    have hloop := hworking.encryptLoop len
    cases (exec_encrypt_of_accepted len hset hfits).symm.trans ht
    refine ⟨_, exec_encrypt_of_accepted len (by rwa [hiv, hkey, hpt]) (by rwa [hpt, hmax]), ?_⟩
    rw [hloop]
    rfl
  · obtain ⟨u, hu, hset, hfits, rfl⟩ := decrypt_ok_cases ht hok
    obtain ⟨u', hu', hsame, hpad⟩ := (hworking.decryptLoop len).strip hu
    refine ⟨_, exec_decrypt_of_strip (by rwa [hiv, hkey, hct]) (by rwa [hct, hmax]) hu', ?_⟩
    rw [hpad, hsame]
    rfl

end Sys2Proof.Machine
end
